-- ==== Sys2Proof/Word.lean ====
section
/-! DEFINITION. The two word types of the core (R8, R10): a byte is 8 bits, a word is 16 bits. -/

namespace Sys2Proof

/-- A byte, 8 bits: a CPU register, a memory cell, a device register (R8, R10). -/
abbrev Byte := BitVec 8

/-- A word, 16 bits: the program counter and every CPU address (R8, R10). -/
abbrev Word := BitVec 16

/-- An address of the PPU's own 14-bit space (R71). -/
abbrev PpuAddr := BitVec 14

end Sys2Proof
end

