-- ==== Sys2Proof/Syntax.lean ====
section
/-! DEFINITION. The instructions of the core: one constructor for each of the 151 rows of the opcode map (R104), named by
mnemonic and addressing mode (R92). `b1` is the operand byte of format F2, `w` the little-endian operand word of F3 (R90). -/

namespace Sys2Proof

/-- An instruction with its operand bytes. Every value of an operand byte is legal (R90), so the field widths alone make
each term well formed. -/
inductive Instr where
  -- Loads, stores and register transfers (40_load_store_transfer.md)
  /-- `LDA #$nn`, opcode A9 (R111). -/
  | ldaImm (b1 : Byte)
  /-- `LDA $nn`, opcode A5 (R111). -/
  | ldaZp (b1 : Byte)
  /-- `LDA $nn,X`, opcode B5 (R111). -/
  | ldaZpX (b1 : Byte)
  /-- `LDA $nnnn`, opcode AD (R111). -/
  | ldaAbs (w : Word)
  /-- `LDA $nnnn,X`, opcode BD (R111). -/
  | ldaAbsX (w : Word)
  /-- `LDA $nnnn,Y`, opcode B9 (R111). -/
  | ldaAbsY (w : Word)
  /-- `LDA ($nn,X)`, opcode A1 (R111). -/
  | ldaIndX (b1 : Byte)
  /-- `LDA ($nn),Y`, opcode B1 (R111). -/
  | ldaIndY (b1 : Byte)
  /-- `LDX #$nn`, opcode A2 (R112). -/
  | ldxImm (b1 : Byte)
  /-- `LDX $nn`, opcode A6 (R112). -/
  | ldxZp (b1 : Byte)
  /-- `LDX $nn,Y`, opcode B6 (R112). -/
  | ldxZpY (b1 : Byte)
  /-- `LDX $nnnn`, opcode AE (R112). -/
  | ldxAbs (w : Word)
  /-- `LDX $nnnn,Y`, opcode BE (R112). -/
  | ldxAbsY (w : Word)
  /-- `LDY #$nn`, opcode A0 (R113). -/
  | ldyImm (b1 : Byte)
  /-- `LDY $nn`, opcode A4 (R113). -/
  | ldyZp (b1 : Byte)
  /-- `LDY $nn,X`, opcode B4 (R113). -/
  | ldyZpX (b1 : Byte)
  /-- `LDY $nnnn`, opcode AC (R113). -/
  | ldyAbs (w : Word)
  /-- `LDY $nnnn,X`, opcode BC (R113). -/
  | ldyAbsX (w : Word)
  /-- `STA $nn`, opcode 85 (R114). -/
  | staZp (b1 : Byte)
  /-- `STA $nn,X`, opcode 95 (R114). -/
  | staZpX (b1 : Byte)
  /-- `STA $nnnn`, opcode 8D (R114). -/
  | staAbs (w : Word)
  /-- `STA $nnnn,X`, opcode 9D (R114). -/
  | staAbsX (w : Word)
  /-- `STA $nnnn,Y`, opcode 99 (R114). -/
  | staAbsY (w : Word)
  /-- `STA ($nn,X)`, opcode 81 (R114). -/
  | staIndX (b1 : Byte)
  /-- `STA ($nn),Y`, opcode 91 (R114). -/
  | staIndY (b1 : Byte)
  /-- `STX $nn`, opcode 86 (R115). -/
  | stxZp (b1 : Byte)
  /-- `STX $nn,Y`, opcode 96 (R115). -/
  | stxZpY (b1 : Byte)
  /-- `STX $nnnn`, opcode 8E (R115). -/
  | stxAbs (w : Word)
  /-- `STY $nn`, opcode 84 (R116). -/
  | styZp (b1 : Byte)
  /-- `STY $nn,X`, opcode 94 (R116). -/
  | styZpX (b1 : Byte)
  /-- `STY $nnnn`, opcode 8C (R116). -/
  | styAbs (w : Word)
  /-- `TAX`, opcode AA (R117). -/
  | tax
  /-- `TAY`, opcode A8 (R118). -/
  | tay
  /-- `TXA`, opcode 8A (R119). -/
  | txa
  /-- `TYA`, opcode 98 (R120). -/
  | tya
  /-- `TSX`, opcode BA (R121). -/
  | tsx
  /-- `TXS`, opcode 9A (R122). -/
  | txs
  -- Arithmetic, logic, compare, increment and decrement (41_arithmetic_logic.md)
  /-- `ADC #$nn`, opcode 69 (R130). -/
  | adcImm (b1 : Byte)
  /-- `ADC $nn`, opcode 65 (R130). -/
  | adcZp (b1 : Byte)
  /-- `ADC $nn,X`, opcode 75 (R130). -/
  | adcZpX (b1 : Byte)
  /-- `ADC $nnnn`, opcode 6D (R130). -/
  | adcAbs (w : Word)
  /-- `ADC $nnnn,X`, opcode 7D (R130). -/
  | adcAbsX (w : Word)
  /-- `ADC $nnnn,Y`, opcode 79 (R130). -/
  | adcAbsY (w : Word)
  /-- `ADC ($nn,X)`, opcode 61 (R130). -/
  | adcIndX (b1 : Byte)
  /-- `ADC ($nn),Y`, opcode 71 (R130). -/
  | adcIndY (b1 : Byte)
  /-- `SBC #$nn`, opcode E9 (R131). -/
  | sbcImm (b1 : Byte)
  /-- `SBC $nn`, opcode E5 (R131). -/
  | sbcZp (b1 : Byte)
  /-- `SBC $nn,X`, opcode F5 (R131). -/
  | sbcZpX (b1 : Byte)
  /-- `SBC $nnnn`, opcode ED (R131). -/
  | sbcAbs (w : Word)
  /-- `SBC $nnnn,X`, opcode FD (R131). -/
  | sbcAbsX (w : Word)
  /-- `SBC $nnnn,Y`, opcode F9 (R131). -/
  | sbcAbsY (w : Word)
  /-- `SBC ($nn,X)`, opcode E1 (R131). -/
  | sbcIndX (b1 : Byte)
  /-- `SBC ($nn),Y`, opcode F1 (R131). -/
  | sbcIndY (b1 : Byte)
  /-- `AND #$nn`, opcode 29 (R132). -/
  | andImm (b1 : Byte)
  /-- `AND $nn`, opcode 25 (R132). -/
  | andZp (b1 : Byte)
  /-- `AND $nn,X`, opcode 35 (R132). -/
  | andZpX (b1 : Byte)
  /-- `AND $nnnn`, opcode 2D (R132). -/
  | andAbs (w : Word)
  /-- `AND $nnnn,X`, opcode 3D (R132). -/
  | andAbsX (w : Word)
  /-- `AND $nnnn,Y`, opcode 39 (R132). -/
  | andAbsY (w : Word)
  /-- `AND ($nn,X)`, opcode 21 (R132). -/
  | andIndX (b1 : Byte)
  /-- `AND ($nn),Y`, opcode 31 (R132). -/
  | andIndY (b1 : Byte)
  /-- `ORA #$nn`, opcode 09 (R133). -/
  | oraImm (b1 : Byte)
  /-- `ORA $nn`, opcode 05 (R133). -/
  | oraZp (b1 : Byte)
  /-- `ORA $nn,X`, opcode 15 (R133). -/
  | oraZpX (b1 : Byte)
  /-- `ORA $nnnn`, opcode 0D (R133). -/
  | oraAbs (w : Word)
  /-- `ORA $nnnn,X`, opcode 1D (R133). -/
  | oraAbsX (w : Word)
  /-- `ORA $nnnn,Y`, opcode 19 (R133). -/
  | oraAbsY (w : Word)
  /-- `ORA ($nn,X)`, opcode 01 (R133). -/
  | oraIndX (b1 : Byte)
  /-- `ORA ($nn),Y`, opcode 11 (R133). -/
  | oraIndY (b1 : Byte)
  /-- `EOR #$nn`, opcode 49 (R134). -/
  | eorImm (b1 : Byte)
  /-- `EOR $nn`, opcode 45 (R134). -/
  | eorZp (b1 : Byte)
  /-- `EOR $nn,X`, opcode 55 (R134). -/
  | eorZpX (b1 : Byte)
  /-- `EOR $nnnn`, opcode 4D (R134). -/
  | eorAbs (w : Word)
  /-- `EOR $nnnn,X`, opcode 5D (R134). -/
  | eorAbsX (w : Word)
  /-- `EOR $nnnn,Y`, opcode 59 (R134). -/
  | eorAbsY (w : Word)
  /-- `EOR ($nn,X)`, opcode 41 (R134). -/
  | eorIndX (b1 : Byte)
  /-- `EOR ($nn),Y`, opcode 51 (R134). -/
  | eorIndY (b1 : Byte)
  /-- `CMP #$nn`, opcode C9 (R136). -/
  | cmpImm (b1 : Byte)
  /-- `CMP $nn`, opcode C5 (R136). -/
  | cmpZp (b1 : Byte)
  /-- `CMP $nn,X`, opcode D5 (R136). -/
  | cmpZpX (b1 : Byte)
  /-- `CMP $nnnn`, opcode CD (R136). -/
  | cmpAbs (w : Word)
  /-- `CMP $nnnn,X`, opcode DD (R136). -/
  | cmpAbsX (w : Word)
  /-- `CMP $nnnn,Y`, opcode D9 (R136). -/
  | cmpAbsY (w : Word)
  /-- `CMP ($nn,X)`, opcode C1 (R136). -/
  | cmpIndX (b1 : Byte)
  /-- `CMP ($nn),Y`, opcode D1 (R136). -/
  | cmpIndY (b1 : Byte)
  /-- `CPX #$nn`, opcode E0 (R137). -/
  | cpxImm (b1 : Byte)
  /-- `CPX $nn`, opcode E4 (R137). -/
  | cpxZp (b1 : Byte)
  /-- `CPX $nnnn`, opcode EC (R137). -/
  | cpxAbs (w : Word)
  /-- `CPY #$nn`, opcode C0 (R138). -/
  | cpyImm (b1 : Byte)
  /-- `CPY $nn`, opcode C4 (R138). -/
  | cpyZp (b1 : Byte)
  /-- `CPY $nnnn`, opcode CC (R138). -/
  | cpyAbs (w : Word)
  /-- `BIT $nn`, opcode 24 (R139). -/
  | bitZp (b1 : Byte)
  /-- `BIT $nnnn`, opcode 2C (R139). -/
  | bitAbs (w : Word)
  /-- `INC $nn`, opcode E6 (R140). -/
  | incZp (b1 : Byte)
  /-- `INC $nn,X`, opcode F6 (R140). -/
  | incZpX (b1 : Byte)
  /-- `INC $nnnn`, opcode EE (R140). -/
  | incAbs (w : Word)
  /-- `INC $nnnn,X`, opcode FE (R140). -/
  | incAbsX (w : Word)
  /-- `DEC $nn`, opcode C6 (R141). -/
  | decZp (b1 : Byte)
  /-- `DEC $nn,X`, opcode D6 (R141). -/
  | decZpX (b1 : Byte)
  /-- `DEC $nnnn`, opcode CE (R141). -/
  | decAbs (w : Word)
  /-- `DEC $nnnn,X`, opcode DE (R141). -/
  | decAbsX (w : Word)
  /-- `INX`, opcode E8 (R142). -/
  | inx
  /-- `INY`, opcode C8 (R143). -/
  | iny
  /-- `DEX`, opcode CA (R144). -/
  | dex
  /-- `DEY`, opcode 88 (R145). -/
  | dey
  -- Shifts and rotates (42_shift_rotate.md)
  /-- `ASL A`, opcode 0A (R151). -/
  | aslAcc
  /-- `ASL $nn`, opcode 06 (R151). -/
  | aslZp (b1 : Byte)
  /-- `ASL $nn,X`, opcode 16 (R151). -/
  | aslZpX (b1 : Byte)
  /-- `ASL $nnnn`, opcode 0E (R151). -/
  | aslAbs (w : Word)
  /-- `ASL $nnnn,X`, opcode 1E (R151). -/
  | aslAbsX (w : Word)
  /-- `LSR A`, opcode 4A (R152). -/
  | lsrAcc
  /-- `LSR $nn`, opcode 46 (R152). -/
  | lsrZp (b1 : Byte)
  /-- `LSR $nn,X`, opcode 56 (R152). -/
  | lsrZpX (b1 : Byte)
  /-- `LSR $nnnn`, opcode 4E (R152). -/
  | lsrAbs (w : Word)
  /-- `LSR $nnnn,X`, opcode 5E (R152). -/
  | lsrAbsX (w : Word)
  /-- `ROL A`, opcode 2A (R153). -/
  | rolAcc
  /-- `ROL $nn`, opcode 26 (R153). -/
  | rolZp (b1 : Byte)
  /-- `ROL $nn,X`, opcode 36 (R153). -/
  | rolZpX (b1 : Byte)
  /-- `ROL $nnnn`, opcode 2E (R153). -/
  | rolAbs (w : Word)
  /-- `ROL $nnnn,X`, opcode 3E (R153). -/
  | rolAbsX (w : Word)
  /-- `ROR A`, opcode 6A (R154). -/
  | rorAcc
  /-- `ROR $nn`, opcode 66 (R154). -/
  | rorZp (b1 : Byte)
  /-- `ROR $nn,X`, opcode 76 (R154). -/
  | rorZpX (b1 : Byte)
  /-- `ROR $nnnn`, opcode 6E (R154). -/
  | rorAbs (w : Word)
  /-- `ROR $nnnn,X`, opcode 7E (R154). -/
  | rorAbsX (w : Word)
  -- Branches, jumps, calls, returns and BRK (43_control_flow.md)
  /-- `BCC label`, opcode 90 (R161). -/
  | bccRel (b1 : Byte)
  /-- `BCS label`, opcode B0 (R162). -/
  | bcsRel (b1 : Byte)
  /-- `BEQ label`, opcode F0 (R163). -/
  | beqRel (b1 : Byte)
  /-- `BNE label`, opcode D0 (R164). -/
  | bneRel (b1 : Byte)
  /-- `BMI label`, opcode 30 (R165). -/
  | bmiRel (b1 : Byte)
  /-- `BPL label`, opcode 10 (R166). -/
  | bplRel (b1 : Byte)
  /-- `BVC label`, opcode 50 (R167). -/
  | bvcRel (b1 : Byte)
  /-- `BVS label`, opcode 70 (R168). -/
  | bvsRel (b1 : Byte)
  /-- `JMP $nnnn`, opcode 4C (R169). -/
  | jmpAbs (w : Word)
  /-- `JMP ($nnnn)`, opcode 6C (R169). -/
  | jmpInd (w : Word)
  /-- `JSR $nnnn`, opcode 20 (R170). -/
  | jsrAbs (w : Word)
  /-- `RTS`, opcode 60 (R171). -/
  | rts
  /-- `BRK`, opcode 00 (R172). -/
  | brk
  /-- `RTI`, opcode 40 (R173). -/
  | rti
  -- Stack, flags and NOP (44_stack_flags_misc.md)
  /-- `PHA`, opcode 48 (R180). -/
  | pha
  /-- `PHP`, opcode 08 (R181). -/
  | php
  /-- `PLA`, opcode 68 (R182). -/
  | pla
  /-- `PLP`, opcode 28 (R183). -/
  | plp
  /-- `CLC`, opcode 18 (R184). -/
  | clc
  /-- `SEC`, opcode 38 (R185). -/
  | sec
  /-- `CLI`, opcode 58 (R186). -/
  | cli
  /-- `SEI`, opcode 78 (R187). -/
  | sei
  /-- `CLD`, opcode D8 (R188). -/
  | cld
  /-- `SED`, opcode F8 (R189). -/
  | sed
  /-- `CLV`, opcode B8 (R190). -/
  | clv
  /-- `NOP`, opcode EA (R191). -/
  | nop
deriving DecidableEq, Repr

end Sys2Proof
end

