-- ==== Sys2Proof/WellFormed.lean ====
section
/-! DEFINITION. Which byte strings are the encoding of one instruction, checked without the decoder's table: the 105
illegal opcodes as R105 lists them, and the operand count by the column structure R106 describes. A term of Instr needs no
check: its operand fields have the widths of R90 and every operand value is legal. -/

namespace Sys2Proof

/-- The 105 illegal opcode bytes, in the order of R105. -/
def illegalOpcodes : List Nat :=
  [0x02, 0x03, 0x04, 0x07, 0x0B, 0x0C, 0x0F, 0x12, 0x13, 0x14, 0x17, 0x1A, 0x1B, 0x1C, 0x1F, 0x22, 0x23, 0x27, 0x2B, 0x2F] ++
  [0x32, 0x33, 0x34, 0x37, 0x3A, 0x3B, 0x3C, 0x3F, 0x42, 0x43, 0x44, 0x47, 0x4B, 0x4F, 0x52, 0x53, 0x54, 0x57, 0x5A, 0x5B] ++
  [0x5C, 0x5F, 0x62, 0x63, 0x64, 0x67, 0x6B, 0x6F, 0x72, 0x73, 0x74, 0x77, 0x7A, 0x7B, 0x7C, 0x7F, 0x80, 0x82, 0x83, 0x87] ++
  [0x89, 0x8B, 0x8F, 0x92, 0x93, 0x97, 0x9B, 0x9C, 0x9E, 0x9F, 0xA3, 0xA7, 0xAB, 0xAF, 0xB2, 0xB3, 0xB7, 0xBB, 0xBF, 0xC2] ++
  [0xC3, 0xC7, 0xCB, 0xCF, 0xD2, 0xD3, 0xD4, 0xD7, 0xDA, 0xDB, 0xDC, 0xDF, 0xE2, 0xE3, 0xE7, 0xEB, 0xEF, 0xF2, 0xF3, 0xF4] ++
  [0xF7, 0xFA, 0xFB, 0xFC, 0xFF]

/-- Is the byte an opcode of the core? (R104, R105) -/
def opcodeLegal (op : Byte) : Bool := !illegalOpcodes.contains op.toNat

/-- The number of operand bytes of a legal opcode, read from its row and column in the map of R104 (R90, R106). -/
def operandCount (op : Byte) : Nat :=
  let row := op.toNat / 16
  match op.toNat % 16 with
  | 0x0 => if row % 2 = 1 then 1 else if row = 2 then 2 else if row < 8 then 0 else 1
  | 0x8 | 0xA => 0
  | 0x9 => if row % 2 = 1 then 2 else 1
  | 0xC | 0xD | 0xE => 2
  | _ => 1

/-- A byte string is the encoding of exactly one instruction: it has an opcode byte, the opcode is legal, and as many
operand bytes follow as its format has (R90). -/
def encodingWellFormed : List Byte → Bool
  | [] => false
  | op :: operands => opcodeLegal op && operands.length == operandCount op

end Sys2Proof
end

