-- ==== Sys2Proof/Decode.lean ====
section
/-! DEFINITION. Decoding and encoding (R90, R91, R104, R105). The opcode map is a list of rows that reads like R104's
table; `decode` looks the first byte up in it and takes the operand bytes its format asks for; `encode` writes the bytes
of an instruction from the same map. -/

namespace Sys2Proof

/-! ## Bytes and words -/

/-- `{hi, lo}`, the word of two bytes (R11). -/
def wordOf (hi lo : Byte) : Word := hi ++ lo

/-- The low byte of a word. -/
def loByte (w : Word) : Byte := w.extractLsb' 0 8

/-- The high byte of a word. -/
def hiByte (w : Word) : Byte := w.extractLsb' 8 8

/-- The two bytes of a word as memory holds them, low byte first (R75). -/
def wordBytes (w : Word) : List Byte := [loByte w, hiByte w]

/-! ## The opcode map -/

/-- The three formats of R90, each with the instruction it makes of its operand bytes. -/
inductive Shape where
  | f1 (i : Instr)
  | f2 (mk : Byte → Instr)
  | f3 (mk : Word → Instr)

/-- One row of the opcode map: the opcode byte, the base cycle count and the format (R104). -/
structure OpcodeRow where
  opcode : Byte
  cycles : Nat
  shape : Shape

/-- Row 0x of the map of R104. -/
def opcodes0 : List OpcodeRow :=
  [⟨0x00, 7, .f1 .brk⟩,
   ⟨0x01, 6, .f2 .oraIndX⟩,
   ⟨0x05, 3, .f2 .oraZp⟩,
   ⟨0x06, 5, .f2 .aslZp⟩,
   ⟨0x08, 3, .f1 .php⟩,
   ⟨0x09, 2, .f2 .oraImm⟩,
   ⟨0x0A, 2, .f1 .aslAcc⟩,
   ⟨0x0D, 4, .f3 .oraAbs⟩,
   ⟨0x0E, 6, .f3 .aslAbs⟩]

/-- Row 1x of the map of R104. -/
def opcodes1 : List OpcodeRow :=
  [⟨0x10, 2, .f2 .bplRel⟩,
   ⟨0x11, 5, .f2 .oraIndY⟩,
   ⟨0x15, 4, .f2 .oraZpX⟩,
   ⟨0x16, 6, .f2 .aslZpX⟩,
   ⟨0x18, 2, .f1 .clc⟩,
   ⟨0x19, 4, .f3 .oraAbsY⟩,
   ⟨0x1D, 4, .f3 .oraAbsX⟩,
   ⟨0x1E, 7, .f3 .aslAbsX⟩]

/-- Row 2x of the map of R104. -/
def opcodes2 : List OpcodeRow :=
  [⟨0x20, 6, .f3 .jsrAbs⟩,
   ⟨0x21, 6, .f2 .andIndX⟩,
   ⟨0x24, 3, .f2 .bitZp⟩,
   ⟨0x25, 3, .f2 .andZp⟩,
   ⟨0x26, 5, .f2 .rolZp⟩,
   ⟨0x28, 4, .f1 .plp⟩,
   ⟨0x29, 2, .f2 .andImm⟩,
   ⟨0x2A, 2, .f1 .rolAcc⟩,
   ⟨0x2C, 4, .f3 .bitAbs⟩,
   ⟨0x2D, 4, .f3 .andAbs⟩,
   ⟨0x2E, 6, .f3 .rolAbs⟩]

/-- Row 3x of the map of R104. -/
def opcodes3 : List OpcodeRow :=
  [⟨0x30, 2, .f2 .bmiRel⟩,
   ⟨0x31, 5, .f2 .andIndY⟩,
   ⟨0x35, 4, .f2 .andZpX⟩,
   ⟨0x36, 6, .f2 .rolZpX⟩,
   ⟨0x38, 2, .f1 .sec⟩,
   ⟨0x39, 4, .f3 .andAbsY⟩,
   ⟨0x3D, 4, .f3 .andAbsX⟩,
   ⟨0x3E, 7, .f3 .rolAbsX⟩]

/-- Row 4x of the map of R104. -/
def opcodes4 : List OpcodeRow :=
  [⟨0x40, 6, .f1 .rti⟩,
   ⟨0x41, 6, .f2 .eorIndX⟩,
   ⟨0x45, 3, .f2 .eorZp⟩,
   ⟨0x46, 5, .f2 .lsrZp⟩,
   ⟨0x48, 3, .f1 .pha⟩,
   ⟨0x49, 2, .f2 .eorImm⟩,
   ⟨0x4A, 2, .f1 .lsrAcc⟩,
   ⟨0x4C, 3, .f3 .jmpAbs⟩,
   ⟨0x4D, 4, .f3 .eorAbs⟩,
   ⟨0x4E, 6, .f3 .lsrAbs⟩]

/-- Row 5x of the map of R104. -/
def opcodes5 : List OpcodeRow :=
  [⟨0x50, 2, .f2 .bvcRel⟩,
   ⟨0x51, 5, .f2 .eorIndY⟩,
   ⟨0x55, 4, .f2 .eorZpX⟩,
   ⟨0x56, 6, .f2 .lsrZpX⟩,
   ⟨0x58, 2, .f1 .cli⟩,
   ⟨0x59, 4, .f3 .eorAbsY⟩,
   ⟨0x5D, 4, .f3 .eorAbsX⟩,
   ⟨0x5E, 7, .f3 .lsrAbsX⟩]

/-- Row 6x of the map of R104. -/
def opcodes6 : List OpcodeRow :=
  [⟨0x60, 6, .f1 .rts⟩,
   ⟨0x61, 6, .f2 .adcIndX⟩,
   ⟨0x65, 3, .f2 .adcZp⟩,
   ⟨0x66, 5, .f2 .rorZp⟩,
   ⟨0x68, 4, .f1 .pla⟩,
   ⟨0x69, 2, .f2 .adcImm⟩,
   ⟨0x6A, 2, .f1 .rorAcc⟩,
   ⟨0x6C, 5, .f3 .jmpInd⟩,
   ⟨0x6D, 4, .f3 .adcAbs⟩,
   ⟨0x6E, 6, .f3 .rorAbs⟩]

/-- Row 7x of the map of R104. -/
def opcodes7 : List OpcodeRow :=
  [⟨0x70, 2, .f2 .bvsRel⟩,
   ⟨0x71, 5, .f2 .adcIndY⟩,
   ⟨0x75, 4, .f2 .adcZpX⟩,
   ⟨0x76, 6, .f2 .rorZpX⟩,
   ⟨0x78, 2, .f1 .sei⟩,
   ⟨0x79, 4, .f3 .adcAbsY⟩,
   ⟨0x7D, 4, .f3 .adcAbsX⟩,
   ⟨0x7E, 7, .f3 .rorAbsX⟩]

/-- Row 8x of the map of R104. -/
def opcodes8 : List OpcodeRow :=
  [⟨0x81, 6, .f2 .staIndX⟩,
   ⟨0x84, 3, .f2 .styZp⟩,
   ⟨0x85, 3, .f2 .staZp⟩,
   ⟨0x86, 3, .f2 .stxZp⟩,
   ⟨0x88, 2, .f1 .dey⟩,
   ⟨0x8A, 2, .f1 .txa⟩,
   ⟨0x8C, 4, .f3 .styAbs⟩,
   ⟨0x8D, 4, .f3 .staAbs⟩,
   ⟨0x8E, 4, .f3 .stxAbs⟩]

/-- Row 9x of the map of R104. -/
def opcodes9 : List OpcodeRow :=
  [⟨0x90, 2, .f2 .bccRel⟩,
   ⟨0x91, 6, .f2 .staIndY⟩,
   ⟨0x94, 4, .f2 .styZpX⟩,
   ⟨0x95, 4, .f2 .staZpX⟩,
   ⟨0x96, 4, .f2 .stxZpY⟩,
   ⟨0x98, 2, .f1 .tya⟩,
   ⟨0x99, 5, .f3 .staAbsY⟩,
   ⟨0x9A, 2, .f1 .txs⟩,
   ⟨0x9D, 5, .f3 .staAbsX⟩]

/-- Row Ax of the map of R104. -/
def opcodesA : List OpcodeRow :=
  [⟨0xA0, 2, .f2 .ldyImm⟩,
   ⟨0xA1, 6, .f2 .ldaIndX⟩,
   ⟨0xA2, 2, .f2 .ldxImm⟩,
   ⟨0xA4, 3, .f2 .ldyZp⟩,
   ⟨0xA5, 3, .f2 .ldaZp⟩,
   ⟨0xA6, 3, .f2 .ldxZp⟩,
   ⟨0xA8, 2, .f1 .tay⟩,
   ⟨0xA9, 2, .f2 .ldaImm⟩,
   ⟨0xAA, 2, .f1 .tax⟩,
   ⟨0xAC, 4, .f3 .ldyAbs⟩,
   ⟨0xAD, 4, .f3 .ldaAbs⟩,
   ⟨0xAE, 4, .f3 .ldxAbs⟩]

/-- Row Bx of the map of R104. -/
def opcodesB : List OpcodeRow :=
  [⟨0xB0, 2, .f2 .bcsRel⟩,
   ⟨0xB1, 5, .f2 .ldaIndY⟩,
   ⟨0xB4, 4, .f2 .ldyZpX⟩,
   ⟨0xB5, 4, .f2 .ldaZpX⟩,
   ⟨0xB6, 4, .f2 .ldxZpY⟩,
   ⟨0xB8, 2, .f1 .clv⟩,
   ⟨0xB9, 4, .f3 .ldaAbsY⟩,
   ⟨0xBA, 2, .f1 .tsx⟩,
   ⟨0xBC, 4, .f3 .ldyAbsX⟩,
   ⟨0xBD, 4, .f3 .ldaAbsX⟩,
   ⟨0xBE, 4, .f3 .ldxAbsY⟩]

/-- Row Cx of the map of R104. -/
def opcodesC : List OpcodeRow :=
  [⟨0xC0, 2, .f2 .cpyImm⟩,
   ⟨0xC1, 6, .f2 .cmpIndX⟩,
   ⟨0xC4, 3, .f2 .cpyZp⟩,
   ⟨0xC5, 3, .f2 .cmpZp⟩,
   ⟨0xC6, 5, .f2 .decZp⟩,
   ⟨0xC8, 2, .f1 .iny⟩,
   ⟨0xC9, 2, .f2 .cmpImm⟩,
   ⟨0xCA, 2, .f1 .dex⟩,
   ⟨0xCC, 4, .f3 .cpyAbs⟩,
   ⟨0xCD, 4, .f3 .cmpAbs⟩,
   ⟨0xCE, 6, .f3 .decAbs⟩]

/-- Row Dx of the map of R104. -/
def opcodesD : List OpcodeRow :=
  [⟨0xD0, 2, .f2 .bneRel⟩,
   ⟨0xD1, 5, .f2 .cmpIndY⟩,
   ⟨0xD5, 4, .f2 .cmpZpX⟩,
   ⟨0xD6, 6, .f2 .decZpX⟩,
   ⟨0xD8, 2, .f1 .cld⟩,
   ⟨0xD9, 4, .f3 .cmpAbsY⟩,
   ⟨0xDD, 4, .f3 .cmpAbsX⟩,
   ⟨0xDE, 7, .f3 .decAbsX⟩]

/-- Row Ex of the map of R104. -/
def opcodesE : List OpcodeRow :=
  [⟨0xE0, 2, .f2 .cpxImm⟩,
   ⟨0xE1, 6, .f2 .sbcIndX⟩,
   ⟨0xE4, 3, .f2 .cpxZp⟩,
   ⟨0xE5, 3, .f2 .sbcZp⟩,
   ⟨0xE6, 5, .f2 .incZp⟩,
   ⟨0xE8, 2, .f1 .inx⟩,
   ⟨0xE9, 2, .f2 .sbcImm⟩,
   ⟨0xEA, 2, .f1 .nop⟩,
   ⟨0xEC, 4, .f3 .cpxAbs⟩,
   ⟨0xED, 4, .f3 .sbcAbs⟩,
   ⟨0xEE, 6, .f3 .incAbs⟩]

/-- Row Fx of the map of R104. -/
def opcodesF : List OpcodeRow :=
  [⟨0xF0, 2, .f2 .beqRel⟩,
   ⟨0xF1, 5, .f2 .sbcIndY⟩,
   ⟨0xF5, 4, .f2 .sbcZpX⟩,
   ⟨0xF6, 6, .f2 .incZpX⟩,
   ⟨0xF8, 2, .f1 .sed⟩,
   ⟨0xF9, 4, .f3 .sbcAbsY⟩,
   ⟨0xFD, 4, .f3 .sbcAbsX⟩,
   ⟨0xFE, 7, .f3 .incAbsX⟩]

/-- The opcode map of R104: 151 rows. -/
def opcodeMap : List OpcodeRow :=
  opcodes0 ++ opcodes1 ++ opcodes2 ++ opcodes3 ++ opcodes4 ++ opcodes5 ++ opcodes6 ++ opcodes7 ++
  opcodes8 ++ opcodes9 ++ opcodesA ++ opcodesB ++ opcodesC ++ opcodesD ++ opcodesE ++ opcodesF

/-- The row of an opcode byte; none for the 105 illegal bytes (R104, R105). -/
def opcodeRow (op : Byte) : Option OpcodeRow := opcodeMap.find? (fun r => r.opcode == op)

/-! ## The decoder -/

/-- Why a byte string is not an instruction: there is no byte, the opcode is illegal (R105), or operand bytes are missing. -/
inductive DecodeError where
  | noBytes
  | unknownOpcode (op : Byte)
  | missingOperand (op : Byte)
deriving DecidableEq, Repr

/-- The instruction at the head of a byte string and the bytes after it, or why there is none (R90, R91). -/
def decode : List Byte → Except DecodeError (Instr × List Byte)
  | [] => .error .noBytes
  | op :: rest =>
    match opcodeRow op with
    | none => .error (.unknownOpcode op)
    | some row =>
      match row.shape, rest with
      | .f1 i, rest => .ok (i, rest)
      | .f2 mk, b1 :: rest => .ok (mk b1, rest)
      | .f3 mk, lo :: hi :: rest => .ok (mk (wordOf hi lo), rest)
      | .f2 _, [] => .error (.missingOperand op)
      | .f3 _, [] => .error (.missingOperand op)
      | .f3 _, [_] => .error (.missingOperand op)

/-- The instruction whose bits, numbered as the opcode table numbers them, are the low `nbits` bits of `w`; every bit above
is 0. Its bytes lie low byte first (R75). -/
def decodeTableWord (nbits w : Nat) : Option Instr :=
  let bits := w % 2 ^ nbits
  match decode [BitVec.ofNat 8 bits, BitVec.ofNat 8 (bits / 256), BitVec.ofNat 8 (bits / 65536)] with
  | .ok (i, _) => some i
  | .error _ => none

/-! ## The encoder -/

/-- The bytes of an instruction: its opcode (R104), then its operand bytes, a word low byte first (R90). -/
def encode (i : Instr) : List Byte :=
  match i with
  | .ldaImm b1 => [0xA9, b1]
  | .ldaZp b1 => [0xA5, b1]
  | .ldaZpX b1 => [0xB5, b1]
  | .ldaAbs w => 0xAD :: wordBytes w
  | .ldaAbsX w => 0xBD :: wordBytes w
  | .ldaAbsY w => 0xB9 :: wordBytes w
  | .ldaIndX b1 => [0xA1, b1]
  | .ldaIndY b1 => [0xB1, b1]
  | .ldxImm b1 => [0xA2, b1]
  | .ldxZp b1 => [0xA6, b1]
  | .ldxZpY b1 => [0xB6, b1]
  | .ldxAbs w => 0xAE :: wordBytes w
  | .ldxAbsY w => 0xBE :: wordBytes w
  | .ldyImm b1 => [0xA0, b1]
  | .ldyZp b1 => [0xA4, b1]
  | .ldyZpX b1 => [0xB4, b1]
  | .ldyAbs w => 0xAC :: wordBytes w
  | .ldyAbsX w => 0xBC :: wordBytes w
  | .staZp b1 => [0x85, b1]
  | .staZpX b1 => [0x95, b1]
  | .staAbs w => 0x8D :: wordBytes w
  | .staAbsX w => 0x9D :: wordBytes w
  | .staAbsY w => 0x99 :: wordBytes w
  | .staIndX b1 => [0x81, b1]
  | .staIndY b1 => [0x91, b1]
  | .stxZp b1 => [0x86, b1]
  | .stxZpY b1 => [0x96, b1]
  | .stxAbs w => 0x8E :: wordBytes w
  | .styZp b1 => [0x84, b1]
  | .styZpX b1 => [0x94, b1]
  | .styAbs w => 0x8C :: wordBytes w
  | .tax => [0xAA]
  | .tay => [0xA8]
  | .txa => [0x8A]
  | .tya => [0x98]
  | .tsx => [0xBA]
  | .txs => [0x9A]
  | .adcImm b1 => [0x69, b1]
  | .adcZp b1 => [0x65, b1]
  | .adcZpX b1 => [0x75, b1]
  | .adcAbs w => 0x6D :: wordBytes w
  | .adcAbsX w => 0x7D :: wordBytes w
  | .adcAbsY w => 0x79 :: wordBytes w
  | .adcIndX b1 => [0x61, b1]
  | .adcIndY b1 => [0x71, b1]
  | .sbcImm b1 => [0xE9, b1]
  | .sbcZp b1 => [0xE5, b1]
  | .sbcZpX b1 => [0xF5, b1]
  | .sbcAbs w => 0xED :: wordBytes w
  | .sbcAbsX w => 0xFD :: wordBytes w
  | .sbcAbsY w => 0xF9 :: wordBytes w
  | .sbcIndX b1 => [0xE1, b1]
  | .sbcIndY b1 => [0xF1, b1]
  | .andImm b1 => [0x29, b1]
  | .andZp b1 => [0x25, b1]
  | .andZpX b1 => [0x35, b1]
  | .andAbs w => 0x2D :: wordBytes w
  | .andAbsX w => 0x3D :: wordBytes w
  | .andAbsY w => 0x39 :: wordBytes w
  | .andIndX b1 => [0x21, b1]
  | .andIndY b1 => [0x31, b1]
  | .oraImm b1 => [0x09, b1]
  | .oraZp b1 => [0x05, b1]
  | .oraZpX b1 => [0x15, b1]
  | .oraAbs w => 0x0D :: wordBytes w
  | .oraAbsX w => 0x1D :: wordBytes w
  | .oraAbsY w => 0x19 :: wordBytes w
  | .oraIndX b1 => [0x01, b1]
  | .oraIndY b1 => [0x11, b1]
  | .eorImm b1 => [0x49, b1]
  | .eorZp b1 => [0x45, b1]
  | .eorZpX b1 => [0x55, b1]
  | .eorAbs w => 0x4D :: wordBytes w
  | .eorAbsX w => 0x5D :: wordBytes w
  | .eorAbsY w => 0x59 :: wordBytes w
  | .eorIndX b1 => [0x41, b1]
  | .eorIndY b1 => [0x51, b1]
  | .cmpImm b1 => [0xC9, b1]
  | .cmpZp b1 => [0xC5, b1]
  | .cmpZpX b1 => [0xD5, b1]
  | .cmpAbs w => 0xCD :: wordBytes w
  | .cmpAbsX w => 0xDD :: wordBytes w
  | .cmpAbsY w => 0xD9 :: wordBytes w
  | .cmpIndX b1 => [0xC1, b1]
  | .cmpIndY b1 => [0xD1, b1]
  | .cpxImm b1 => [0xE0, b1]
  | .cpxZp b1 => [0xE4, b1]
  | .cpxAbs w => 0xEC :: wordBytes w
  | .cpyImm b1 => [0xC0, b1]
  | .cpyZp b1 => [0xC4, b1]
  | .cpyAbs w => 0xCC :: wordBytes w
  | .bitZp b1 => [0x24, b1]
  | .bitAbs w => 0x2C :: wordBytes w
  | .incZp b1 => [0xE6, b1]
  | .incZpX b1 => [0xF6, b1]
  | .incAbs w => 0xEE :: wordBytes w
  | .incAbsX w => 0xFE :: wordBytes w
  | .decZp b1 => [0xC6, b1]
  | .decZpX b1 => [0xD6, b1]
  | .decAbs w => 0xCE :: wordBytes w
  | .decAbsX w => 0xDE :: wordBytes w
  | .inx => [0xE8]
  | .iny => [0xC8]
  | .dex => [0xCA]
  | .dey => [0x88]
  | .aslAcc => [0x0A]
  | .aslZp b1 => [0x06, b1]
  | .aslZpX b1 => [0x16, b1]
  | .aslAbs w => 0x0E :: wordBytes w
  | .aslAbsX w => 0x1E :: wordBytes w
  | .lsrAcc => [0x4A]
  | .lsrZp b1 => [0x46, b1]
  | .lsrZpX b1 => [0x56, b1]
  | .lsrAbs w => 0x4E :: wordBytes w
  | .lsrAbsX w => 0x5E :: wordBytes w
  | .rolAcc => [0x2A]
  | .rolZp b1 => [0x26, b1]
  | .rolZpX b1 => [0x36, b1]
  | .rolAbs w => 0x2E :: wordBytes w
  | .rolAbsX w => 0x3E :: wordBytes w
  | .rorAcc => [0x6A]
  | .rorZp b1 => [0x66, b1]
  | .rorZpX b1 => [0x76, b1]
  | .rorAbs w => 0x6E :: wordBytes w
  | .rorAbsX w => 0x7E :: wordBytes w
  | .bccRel b1 => [0x90, b1]
  | .bcsRel b1 => [0xB0, b1]
  | .beqRel b1 => [0xF0, b1]
  | .bneRel b1 => [0xD0, b1]
  | .bmiRel b1 => [0x30, b1]
  | .bplRel b1 => [0x10, b1]
  | .bvcRel b1 => [0x50, b1]
  | .bvsRel b1 => [0x70, b1]
  | .jmpAbs w => 0x4C :: wordBytes w
  | .jmpInd w => 0x6C :: wordBytes w
  | .jsrAbs w => 0x20 :: wordBytes w
  | .rts => [0x60]
  | .brk => [0x00]
  | .rti => [0x40]
  | .pha => [0x48]
  | .php => [0x08]
  | .pla => [0x68]
  | .plp => [0x28]
  | .clc => [0x18]
  | .sec => [0x38]
  | .cli => [0x58]
  | .sei => [0x78]
  | .cld => [0xD8]
  | .sed => [0xF8]
  | .clv => [0xB8]
  | .nop => [0xEA]

/-- The opcode byte of an instruction. -/
def opcodeOf (i : Instr) : Byte := (encode i).headD 0

/-- The base cycle count of an instruction (R104, R351). -/
def baseCycles (i : Instr) : Nat := ((opcodeRow (opcodeOf i)).map OpcodeRow.cycles).getD 0

end Sys2Proof
end

