-- ==== Sys2Proof/Config.lean ====
section
/-! DEFINITION. The parameters of the core (R9, R352): the settled ones as numbers, the open ones and the free values
as constants without a body, so that no proof can lean on a value of theirs. -/

namespace Sys2Proof.Config

/-- `TOTAL_SCANLINES` (R9). -/
def totalScanlines : Int := 262

/-- `PIXELS_PER_SCANLINE` (R9). -/
def pixelsPerScanline : Nat := 341

/-- `VBLANK_BEGIN`, the scanline at which VBlank begins (R9, D23). -/
def vblankBegin : Int := 241

/-- `MASTER_PER_CPU` (R352, D10). -/
def masterPerCpu : Nat := 12

/-- `MASTER_PER_PPU` (R352, D10). -/
def masterPerPpu : Nat := 4

/-- `MASTER_PER_APU` (R352, D10). -/
def masterPerApu : Nat := 24

/-- OPEN parameter (R9, D10; log entry 4): `SAMPLE_DIVISOR` less one, a free natural number. -/
opaque sampleDivisorLessOne : Nat

/-- `SAMPLE_DIVISOR`, the master cycles of one audio sample: any positive integer (R9, R352). -/
def sampleDivisor : Nat := sampleDivisorLessOne + 1

/-- OPEN parameter (R9, D10; log entry 4): `AUDIO_BATCH` less one, a free natural number. -/
opaque audioBatchLessOne : Nat

/-- `AUDIO_BATCH`, the samples of one delivered batch: any positive integer (R9, R356). -/
def audioBatch : Nat := audioBatchLessOne + 1

/-- FREE VALUE (R15, D21; log entry 3): the byte of the n-th open-bus draw. A draw of fewer bits takes low bits of it. -/
opaque openBus : Nat → Byte

/-- FREE VALUE (log entry 5, DESIGN CHOICE): what a read gives through a window that names no page of the cartridge, by
page number and offset. No loaded cartridge reaches it (R69). -/
opaque missingByte : Nat → Nat → Byte

end Sys2Proof.Config
end

