-- ==== Sys2Proof/Machine/Memory.lean ====
section
/-! DEFINITION. Sparse memories: a list of (address, value) pairs in one canonical form, addresses strictly rising and no
entry equal to what an unlisted address reads as. The unlisted value is an argument of each operation. -/

namespace Sys2Proof.Machine

/-- A sparse table: the listed places and their values. -/
abbrev Table (α : Type) := List (Nat × α)

/-- A memory of bytes, as the host's cells. -/
abbrev Memory := List Host.Cell

/-- Canonical form: keys strictly rising, no entry equal to the unlisted value `d`. -/
abbrev Table.Wf {α : Type} [DecidableEq α] (d : α) (t : Table α) : Prop :=
  t.Pairwise (fun p q => p.1 < q.1) ∧ ∀ p ∈ t, p.2 ≠ d

/-- What place `n` holds; `d` where the table lists nothing. -/
def Table.get {α : Type} (d : α) : Table α → Nat → α
  | [], _ => d
  | (k, v) :: t, n => if n = k then v else Table.get d t n

/-- List the value `v` at place `n`, in its place among rising keys. -/
def Table.insert {α : Type} (n : Nat) (v : α) : Table α → Table α
  | [] => [(n, v)]
  | (k, w) :: t =>
    if n < k then (n, v) :: (k, w) :: t
    else if n = k then (n, v) :: t
    else (k, w) :: Table.insert n v t

/-- List nothing at place `n`. -/
def Table.erase {α : Type} (n : Nat) (t : Table α) : Table α := t.filter (fun p => p.1 != n)

/-- Write `v` at place `n`; writing the unlisted value removes the entry. -/
def Table.set {α : Type} [DecidableEq α] (d : α) (t : Table α) (n : Nat) (v : α) : Table α :=
  if v = d then Table.erase n t else Table.insert n v t

/-- The table of a sequence of values at the places `start`, `start + 1`, and so on. -/
def Table.ofValues {α : Type} [DecidableEq α] (d : α) (start : Nat) : List α → Table α
  | [] => []
  | v :: vs =>
    if v = d then Table.ofValues d (start + 1) vs
    else (start, v) :: Table.ofValues d (start + 1) vs

/-- A table of rows, itself a table whose unlisted row is empty. -/
abbrev Grid (α : Type) := Table (Table α)

/-- What column `x` of row `y` holds. -/
def Grid.get {α : Type} (d : α) (g : Grid α) (y x : Nat) : α := Table.get d (Table.get [] g y) x

/-- Write column `x` of row `y`. -/
def Grid.set {α : Type} [DecidableEq α] (d : α) (g : Grid α) (y x : Nat) (v : α) : Grid α :=
  Table.set [] g y (Table.set d (Table.get [] g y) x v)

/-- Canonical form of a grid: of the table of rows and of each row. -/
abbrev Grid.Wf {α : Type} [DecidableEq α] (d : α) (g : Grid α) : Prop :=
  Table.Wf ([] : Table α) g ∧ ∀ p ∈ g, Table.Wf d p.2

/-- What a memory byte that nothing has written reads as (log entry 2): 0. -/
def unlistedByte : Byte := 0

/-- The byte at an address of a memory. -/
def Memory.read (m : Memory) (a : Nat) : Byte := Table.get unlistedByte m a

/-- Write a byte of a memory. -/
def Memory.write (m : Memory) (a : Nat) (v : Byte) : Memory := Table.set unlistedByte m a v

/-- Canonical form of a memory. -/
abbrev Memory.wf (m : Memory) : Prop := Table.Wf unlistedByte m

/-- The memory that holds a byte string from address 0 on. -/
def Memory.ofBytes (bs : List Byte) : Memory := Table.ofValues unlistedByte 0 bs

end Sys2Proof.Machine
end

