-- ==== Sys2Proof/Machine/State.lean ====
section
/-! DEFINITION. The state of the core, plain data: every piece of state of 10_state.md, its power-up values (R410 to R417),
and the reasons a step can stop (R380, R373). -/

namespace Sys2Proof.Machine

/-! ## CPU (R20 to R27) -/

/-- The CPU's registers, flags and the hidden break state. -/
structure Cpu where
  /-- `A`, `X`, `Y` (R20). -/
  a : Byte
  x : Byte
  y : Byte
  /-- `S`, an offset into the stack page (R21). -/
  s : Byte
  /-- `PC` (R22). -/
  pc : Word
  /-- The flags `N V D I Z C` (R23). -/
  n : Bool
  v : Bool
  d : Bool
  i : Bool
  z : Bool
  c : Bool
  /-- `cpu.brk`, the hidden break state (R27). -/
  brk : Bool
deriving DecidableEq, Repr

/-- The CPU at power-up (R411), before PC is read from the reset vector (R410; log entry 1). -/
def Cpu.powerUp : Cpu :=
  { a := 0, x := 0, y := 0, s := 0xFD, pc := 0, n := false, v := false, d := false, i := true, z := false, c := false,
    brk := false }

/-! ## PPU (R29 to R40) -/

/-- An opaque entry of the sprite-pixel buffer (R38): its palette index, its background-priority bit and its sprite-zero
stencil. A transparent entry is the absence of one (log entry 9). -/
structure SpritePixel where
  index : BitVec 5
  behind : Bool
  zero : Bool
deriving DecidableEq, Repr

/-- The picture unit's registers, counters and memories. -/
structure Ppu where
  /-- `ctrl` (R29) and `mask` (R30). -/
  ctrl : Byte
  mask : Byte
  /-- `status`: VBL, S0, OVF (R31). -/
  vbl : Bool
  s0 : Bool
  ovf : Bool
  /-- `oamaddr` (R32). -/
  oamaddr : Byte
  /-- `v`, `t`, fine X and the write toggle (R33). -/
  v : BitVec 15
  t : BitVec 15
  x : BitVec 3
  w : Bool
  /-- The read buffer of 0x2007 (R34). -/
  buffer : Byte
  /-- The position of the next pixel-clock and the frame parity (R35). -/
  scanline : Int
  pixel : Nat
  odd : Bool
  /-- The NMI-inhibit flag (R36). -/
  nmiInhibit : Bool
  /-- Nametable RAM, palette RAM and sprite RAM (R37). -/
  ciram : Memory
  pal : Table (BitVec 6)
  oam : Memory
  /-- The sprite-pixel buffer by row and column (R38). -/
  spr : Grid (Option SpritePixel)
  /-- The attribute-table cache at `n * 1024 + row * 32 + col` (R39). -/
  attr : Table (BitVec 2)
  /-- The framebuffer by row and column (R40). -/
  fb : Grid (BitVec 6)
deriving DecidableEq, Repr

/-- The PPU at power-up (R412), its memories holding nothing yet (R417; log entry 2). -/
def Ppu.powerUp : Ppu :=
  { ctrl := 0, mask := 0, vbl := false, s0 := false, ovf := false, oamaddr := 0, v := 0, t := 0, x := 0, w := false,
    buffer := 0, scanline := -1, pixel := 0, odd := false, nmiInhibit := false, ciram := [], pal := [], oam := [],
    spr := [], attr := [], fb := [] }

/-! ## APU (R42 to R46) -/

/-- An envelope: halt (also the loop), constant volume, volume or period, start flag, divider, decay level (R42, R44). -/
structure Envelope where
  halt : Bool
  constvol : Bool
  vol : BitVec 4
  start : Bool
  div : BitVec 4
  decay : BitVec 4
deriving DecidableEq, Repr

/-- An envelope at power-up (R413). -/
def Envelope.powerUp : Envelope := { halt := false, constvol := false, vol := 0, start := false, div := 0, decay := 0 }

/-- A pulse channel (R42). -/
structure Pulse where
  duty : BitVec 2
  env : Envelope
  sweepEn : Bool
  sweepNeg : Bool
  sweepPeriod : BitVec 3
  sweepShift : BitVec 3
  sweepDiv : BitVec 3
  sweepReload : Bool
  period : BitVec 11
  timer : BitVec 11
  seq : BitVec 3
  length : Byte
  enabled : Bool
deriving DecidableEq, Repr

/-- A pulse channel at power-up (R413). -/
def Pulse.powerUp : Pulse :=
  { duty := 0, env := Envelope.powerUp, sweepEn := false, sweepNeg := false, sweepPeriod := 0, sweepShift := 0,
    sweepDiv := 0, sweepReload := false, period := 0, timer := 0, seq := 0, length := 0, enabled := false }

/-- The triangle channel (R43). -/
structure Triangle where
  control : Bool
  linReloadVal : BitVec 7
  lin : BitVec 7
  linReload : Bool
  period : BitVec 11
  timer : BitVec 11
  seq : BitVec 5
  length : Byte
  enabled : Bool
deriving DecidableEq, Repr

/-- The triangle channel at power-up (R413). -/
def Triangle.powerUp : Triangle :=
  { control := false, linReloadVal := 0, lin := 0, linReload := false, period := 0, timer := 0, seq := 0, length := 0,
    enabled := false }

/-- The noise channel (R44). -/
structure Noise where
  env : Envelope
  mode : Bool
  periodIdx : BitVec 4
  timer : BitVec 12
  lfsr : BitVec 15
  length : Byte
  enabled : Bool
deriving DecidableEq, Repr

/-- The noise channel at power-up (R413): `lfsr = 1`. -/
def Noise.powerUp : Noise :=
  { env := Envelope.powerUp, mode := false, periodIdx := 0, timer := 0, lfsr := 1, length := 0, enabled := false }

/-- The delta-modulation channel (R45). -/
structure Dmc where
  irqEn : Bool
  loop : Bool
  rateIdx : BitVec 4
  level : BitVec 7
  sampleAddr : Word
  sampleLen : BitVec 12
  curAddr : Word
  bytesLeft : BitVec 12
  buffer : Byte
  bufferFull : Bool
  shift : Byte
  bitsLeft : BitVec 4
  silence : Bool
  timer : BitVec 9
  irqFlag : Bool
deriving DecidableEq, Repr

/-- The DMC channel at power-up (R413). -/
def Dmc.powerUp : Dmc :=
  { irqEn := false, loop := false, rateIdx := 0, level := 0, sampleAddr := 0xC000, sampleLen := 1, curAddr := 0,
    bytesLeft := 0, buffer := 0, bufferFull := false, shift := 0, bitsLeft := 8, silence := true, timer := 0,
    irqFlag := false }

/-- The frame sequencer (R46): the mode (true is 5-step), the IRQ inhibit, the frame-interrupt flag, the APU cycles since
the sequence started. -/
structure FrameSeq where
  mode5 : Bool
  irqInhibit : Bool
  frameIrq : Bool
  fcount : Nat
deriving DecidableEq, Repr

/-- The frame sequencer at power-up (R413). -/
def FrameSeq.powerUp : FrameSeq := { mode5 := false, irqInhibit := false, frameIrq := false, fcount := 0 }

/-- The audio unit. -/
structure Apu where
  pulse1 : Pulse
  pulse2 : Pulse
  triangle : Triangle
  noise : Noise
  dmc : Dmc
  frame : FrameSeq
deriving DecidableEq, Repr

/-- The APU at power-up (R413). -/
def Apu.powerUp : Apu :=
  { pulse1 := Pulse.powerUp, pulse2 := Pulse.powerUp, triangle := Triangle.powerUp, noise := Noise.powerUp,
    dmc := Dmc.powerUp, frame := FrameSeq.powerUp }

/-! ## Cartridge and mapper (R47, R48) -/

/-- The cartridge: its 8 KiB PRG pages, its 1 KiB CHR pages (ROM or RAM), and the header's bits (R47). -/
structure Cartridge where
  prg : List Memory
  chr : List Memory
  chrIsRam : Bool
  hdrMirroring : Bool
  sramFlag : Bool
deriving DecidableEq, Repr

/-- `prg_pages` (R47). -/
def Cartridge.prgPages (c : Cartridge) : Nat := c.prg.length

/-- `chr_pages` (R47). -/
def Cartridge.chrPages (c : Cartridge) : Nat := c.chr.length

/-- No cartridge (log entry 1): no page of either kind. -/
def Cartridge.absent : Cartridge := { prg := [], chr := [], chrIsRam := false, hdrMirroring := false, sramFlag := false }

/-- The private registers of mapper 1 (R331). -/
structure Mmc1 where
  shift : BitVec 5
  count : Nat
  control : BitVec 5
  chr0 : BitVec 5
  chr1 : BitVec 5
  prg : BitVec 5
deriving DecidableEq, Repr

/-- The private registers of mapper 4 (R337): `select`, `R[0..7]` and the mirroring bit (true is horizontal). -/
structure Mmc3 where
  select : Byte
  r : Vector Byte 8
  mirror : Bool
deriving DecidableEq, Repr

/-- The mapper: the closed sum of the five kinds, each with its own registers (R320). -/
inductive Mapper where
  | mapper0
  | mapper1 (r : Mmc1)
  | mapper2 (bank : Byte)
  | mapper3 (bank : Byte)
  | mapper4 (r : Mmc3)
deriving DecidableEq, Repr

/-- The windows: four indices into the PRG pages, eight into the CHR pages (R48). -/
structure Windows where
  prg : Vector Nat 4
  chr : Vector Nat 8
deriving DecidableEq, Repr

/-- One of the twelve windows, as `BANK_OVERFLOW` names it (R380). -/
inductive Window where
  | prg (n : Fin 4)
  | chr (n : Fin 8)
deriving DecidableEq, Repr

/-! ## Coordinator (R50 to R55) -/

/-- The interrupt latch (R51). -/
inductive Latch where
  | none
  | irqBrk
  | nmi
  | reset
deriving DecidableEq, Repr

/-- Clock bookkeeping (R52). -/
structure Clock where
  accPpu : Nat
  accApu : Nat
  accSample : Nat
  deferred : Nat
  dmaCycles : Nat
  totalCycles : Nat
deriving DecidableEq, Repr

/-- The clock at power-up (R415). -/
def Clock.powerUp : Clock :=
  { accPpu := 0, accApu := 0, accSample := 0, deferred := 0, dmaCycles := 0, totalCycles := 0 }

/-- One controller: the host's last button snapshot and the shift register (R53). -/
structure Pad where
  buttons : Byte
  shift : Byte
deriving DecidableEq, Repr

/-- The two controllers and their shared strobe (R53). -/
structure Pads where
  pad0 : Pad
  pad1 : Pad
  strobe : Bool
deriving DecidableEq, Repr

/-- The controllers at power-up (R415). -/
def Pads.powerUp : Pads := { pad0 := ⟨0, 0⟩, pad1 := ⟨0, 0⟩, strobe := false }

/-- A delivered frame: the framebuffer and the mask byte (R357). -/
structure Frame where
  fb : Grid (BitVec 6)
  mask : Byte
deriving DecidableEq, Repr

/-- The model's own record of what the latest step gave the host (log entry 8): the step's cycle count (R350), the frames
(R357) and the audio batches (R356) it delivered, oldest first. -/
structure Output where
  cycles : Nat
  frames : List Frame
  batches : List (List Rat)
deriving DecidableEq, Repr

/-- No output yet. -/
def Output.nothing : Output := { cycles := 0, frames := [], batches := [] }

/-- A fatal error: its code and its info record (R380). -/
inductive Fatal where
  /-- `UNKNOWN_OPCODE`: a fetched opcode byte outside the map of R104 (R91); raised by the fetch. -/
  | unknownOpcode (pc : Word) (op : Byte)
  /-- `BUS_UNMAPPED_READ`: a CPU-bus read of 0x4018-0x5FFF (R67); raised by any read. -/
  | busUnmappedRead (address : Word)
  /-- `BUS_UNMAPPED_WRITE`: a CPU-bus write of 0x4018-0x5FFF (R67); raised by any write. -/
  | busUnmappedWrite (address : Word) (value : Byte)
  /-- `PRG_ROM_WRITE`: a write to 0x8000-0xFFFF on mapper 0 (R330). -/
  | prgRomWrite (address : Word) (value : Byte)
  /-- `BANK_OVERFLOW`: a mapper register write that makes a window name a missing page (R327). -/
  | bankOverflow (address : Word) (value : Byte) (window : Window)
  /-- `CHR_ROM_WRITE`: a PPU write to 0x0000-0x1FFF of a cartridge with CHR ROM (R72). -/
  | chrRomWrite (address : PpuAddr) (value : Byte)
deriving DecidableEq, Repr

/-- The state of the core. -/
structure State where
  /-- The CPU (R20 to R27). -/
  cpu : Cpu
  /-- The picture unit (R29 to R40). -/
  ppu : Ppu
  /-- The audio unit (R42 to R46). -/
  apu : Apu
  /-- Is a cartridge loaded? (R350, R373) -/
  loaded : Bool
  /-- The cartridge (R47), the mapper's registers and its windows (R48). -/
  cart : Cartridge
  mapper : Mapper
  win : Windows
  /-- Cartridge SRAM, 8192 bytes (R49). -/
  sram : Memory
  /-- Work RAM, 2048 bytes (R50). -/
  ram : Memory
  /-- The interrupt latch (R51). -/
  latch : Latch
  /-- Clock bookkeeping (R52). -/
  clock : Clock
  /-- The controllers (R53). -/
  pads : Pads
  /-- The samples produced since the last delivery (R54), exact values (R288). -/
  batch : List Rat
  /-- The fault state (R55). -/
  fault : Option Fatal
  /-- The model's own counter of open-bus draws (R15; log entry 3). -/
  draws : Nat
  /-- The model's own record of the latest step's output (log entry 8). -/
  out : Output
deriving DecidableEq, Repr

/-- The power-up state of a console with no cartridge in it (R410 to R417; log entries 1 and 2). `powerUp` makes of it the
console a successful load builds. -/
def State.reset : State :=
  { cpu := Cpu.powerUp, ppu := Ppu.powerUp, apu := Apu.powerUp, loaded := false, cart := Cartridge.absent,
    mapper := .mapper0, win := ⟨#v[0, 0, 0, 0], #v[0, 0, 0, 0, 0, 0, 0, 0]⟩, sram := [], ram := [], latch := .none,
    clock := Clock.powerUp, pads := Pads.powerUp, batch := [], fault := none, draws := 0, out := Output.nothing }

/-- Why a step stops. -/
inductive Fault where
  /-- A fatal error ends emulation (R14, R364): its record, and the state left at the moment of the fault, whose `fault`
  field holds the record. Raised by the fetch and by every bus access. Safe: it is the spec's own terminal state. -/
  | fatal (record : Fatal) (left : State)
deriving DecidableEq, Repr

/-- Why a step is refused. -/
inductive Refusal where
  /-- An instruction that has no meaning yet, by its mnemonic. Raised by the dispatch alone. Safe: nothing runs. -/
  | notModelled (mnemonic : String)
  /-- A step of a console that holds no cartridge (R373, D55). Raised by `step`. Safe: the spec refuses it too. -/
  | notLoaded
  /-- A step of a console whose fault is set (R373, D55). Raised by `step`. Safe: the spec refuses it too. -/
  | faulted (record : Fatal)
deriving DecidableEq, Repr

end Sys2Proof.Machine
end

