-- ==== Sys2Proof/Machine/Ops.lean ====
section
/-! DEFINITION. The shared operations: results that carry the state on or stop, raising a fatal error, open-bus draws, the
interrupt latch, PRG reads, the stack, and taking and leaving an interrupt. -/

namespace Sys2Proof.Machine

/-- What an operation on the state answers: a value and the state after it, or the fault that stops the step. -/
inductive Res (α : Type) where
  | ok (value : α) (after : State)
  | stop (fault : Fault)

/-- Go on with the value and the state; a stop stays a stop (R17: nothing after a Fatal happens). -/
def Res.bind {α β : Type} (r : Res α) (k : α → State → Res β) : Res β :=
  match r with
  | .ok v s => k v s
  | .stop f => .stop f

/-- The outcome of an instruction whose operation answers `r`. -/
def Res.toOutcome (r : Res Unit) : Host.Outcome State Fault Refusal :=
  match r with
  | .ok _ s => .next s
  | .stop f => .fault f

/-- `raise Fatal(code, info)` (R14, R364): the state stays as it is at the moment of the fault and its fault is set. -/
def raise {α : Type} (record : Fatal) (s : State) : Res α :=
  .stop (.fatal record { s with fault := some record })

/-- `draw()` (R15, D21): the value of the next open-bus draw, and the state with one draw more made. -/
def draw (s : State) : Byte × State := (Config.openBus s.draws, { s with draws := s.draws + 1 })

/-! ## The interrupt latch (R384) -/

/-- The kinds `RaiseInterrupt` takes (R384). -/
inductive IntKind where
  | none
  | irqBrk
  | nmi
  | reset
  | cancelNmi
deriving DecidableEq, Repr

/-- `Rank` (R384, R385). -/
def Latch.rank : Latch → Nat
  | .none => 0
  | .irqBrk => 1
  | .nmi => 2
  | .reset => 3

/-- A raise of a latched kind: it replaces a kind of lower rank and leaves any other (R384). -/
def Latch.raised (kind latch : Latch) : Latch := if latch.rank < kind.rank then kind else latch

/-- The latch after `RaiseInterrupt(kind)` (R384). -/
def Latch.after (latch : Latch) : IntKind → Latch
  | .none => latch
  | .cancelNmi => if latch = .nmi then .none else latch
  | .irqBrk => Latch.raised .irqBrk latch
  | .nmi => Latch.raised .nmi latch
  | .reset => Latch.raised .reset latch

/-- `RaiseInterrupt(kind)` (R384). -/
def raiseInterrupt (kind : IntKind) (s : State) : State := { s with latch := s.latch.after kind }

/-! ## PRG reads (R69) -/

/-- A byte of page `page` of a sequence of pages; the free value where there is no such page (log entry 5). -/
def pageByte (pages : List Memory) (page offset : Nat) : Byte :=
  match pages[page]? with
  | some m => m.read offset
  | none => Config.missingByte page offset

/-- The PRG page that an address in 0x8000-0xFFFF reaches: the index held by window `(a - 0x8000) >> 13` (R69). -/
def prgPageOf (s : State) (a : Word) : Nat := s.win.prg[(a.toNat / 0x2000) % 4]'(Nat.mod_lt _ (by decide))

/-- `PrgRead(a)` (R69). -/
def prgRead (s : State) (a : Word) : Byte := pageByte s.cart.prg (prgPageOf s a) (a.toNat % 0x2000)

/-- `Read16(vec)` of a vector (R13, R79): its two bytes lie in PRG window 3, so both reads are PRG reads. -/
def readVector (s : State) (vec : Word) : Word := wordOf (prgRead s (vec + 1)) (prgRead s vec)

/-! ## The CPU's registers and the stack -/

/-- The state with another CPU in it. -/
def State.withCpu (s : State) (c : Cpu) : State := { s with cpu := c }

/-- Set PC. -/
def State.setPc (s : State) (pc : Word) : State := s.withCpu { s.cpu with pc := pc }

/-- The address of the stack byte `S` names, `0x0100 | S` (R21). -/
def stackAddress (sp : Byte) : Word := 0x0100 ||| sp.zeroExtend 16

/-- The place of the stack byte `S` names in work RAM (R21, R64). -/
def stackPlace (sp : Byte) : Nat := 0x100 + sp.toNat

/-- `Push(v)` (R13): a write at `0x0100 | S`, then `S - 1`. The stack page is work RAM (R80), so the write is a RAM write. -/
def push (v : Byte) (s : State) : State :=
  { s with ram := s.ram.write (stackPlace s.cpu.s) v, cpu := { s.cpu with s := s.cpu.s - 1 } }

/-- `Pull()` (R13): `S + 1`, then a read at `0x0100 | S`, a read of work RAM. -/
def pull (s : State) : Byte × State :=
  (s.ram.read (stackPlace (s.cpu.s + 1)), s.withCpu { s.cpu with s := s.cpu.s + 1 })

/-- Push a word, high byte first (R75). -/
def pushWord (w : Word) (s : State) : State := push (loByte w) (push (hiByte w) s)

/-- Pull a word, low byte first. -/
def pullWord (s : State) : Word × State :=
  let lo := pull s
  let hi := pull lo.2
  (wordOf hi.1 lo.1, hi.2)

/-- `P_byte(b) = {N, V, 1, b, D, I, Z, C}` (R24). -/
def Cpu.status (c : Cpu) (b : Bool) : Byte :=
  BitVec.ofBool c.n ++ BitVec.ofBool c.v ++ 1#1 ++ BitVec.ofBool b ++ BitVec.ofBool c.d ++ BitVec.ofBool c.i ++
    BitVec.ofBool c.z ++ BitVec.ofBool c.c

/-- `SetP(m)` (R25): bits 5 and 4 are ignored. -/
def Cpu.setStatus (c : Cpu) (m : Byte) : Cpu :=
  { c with n := m.getLsbD 7, v := m.getLsbD 6, d := m.getLsbD 3, i := m.getLsbD 2, z := m.getLsbD 1, c := m.getLsbD 0 }

/-! ## Taking an interrupt and returning from it (R387, R414, R173) -/

/-- The entry of an interrupt through the vector at `vec`, of `cycles` entry cycles (R387): push PC and the status byte,
set I, clear the break state, load PC, owe the cycles. -/
def takeInterrupt (vec : Word) (cycles : Nat) (s : State) : State :=
  let pushed := push (s.cpu.status s.cpu.brk) (pushWord s.cpu.pc s)
  { pushed with
    latch := .none
    cpu := { pushed.cpu with i := true, brk := false, pc := readVector s vec }
    clock := { s.clock with deferred := s.clock.deferred + cycles } }

/-- `ResetEntry()` (R414): three pushes' worth of S with no writes, I set, PC from the reset vector, 7 cycles owed. -/
def resetEntry (s : State) : State :=
  { s with
    latch := .none
    cpu := { s.cpu with s := s.cpu.s - 3, i := true, pc := readVector s 0xFFFC }
    clock := { s.clock with deferred := s.clock.deferred + 7 } }

/-- `ResolveInterrupt()` (R387): entry cycles by R393. -/
def resolveInterrupt (s : State) : State :=
  match s.latch with
  | .none => s
  | .reset => resetEntry s
  | .nmi => takeInterrupt 0xFFFA 7 s
  | .irqBrk =>
    if s.cpu.i && !s.cpu.brk then s
    else takeInterrupt 0xFFFE (if s.cpu.brk then 0 else 7) s

/-- The return from an interrupt (R173): pull the status byte, then PC. -/
def returnFromInterrupt (s : State) : State :=
  let p := pull s
  let pc := pullWord (p.2.withCpu (p.2.cpu.setStatus p.1))
  pc.2.setPc pc.1

end Sys2Proof.Machine
end

