-- ==== Sys2Proof/Machine/Apu.lean ====
section
/-! DEFINITION. The APU's units, channels, frame sequencer, registers and mixer (R261 to R289), all but the DMC memory
reader, which reads the CPU's bus. -/

namespace Sys2Proof.Machine

/-- The state with another APU in it. -/
def State.withApu (s : State) (a : Apu) : State := { s with apu := a }

/-- An entry of a table of naturals. -/
def tableEntry (t : List Nat) (i : Nat) : Nat := t.getD i 0

/-! ## Length counters (R266 to R268) -/

/-- The length table `LEN` (R266). -/
def lengthTable : List Nat :=
  [10, 254, 20, 2, 40, 4, 80, 6, 160, 8, 60, 10, 14, 12, 26, 14,
   12, 16, 24, 18, 48, 20, 96, 22, 192, 24, 72, 26, 16, 28, 32, 30]

/-- The length counter after a write of `v` to a length register (R267): loaded only if the channel is enabled. -/
def lengthLoad (enabled : Bool) (length v : Byte) : Byte :=
  if enabled then BitVec.ofNat 8 (tableEntry lengthTable (v.extractLsb 7 3).toNat) else length

/-- The clock of a length counter (R268). -/
def lengthClock (halt : Bool) (length : Byte) : Byte := if length ≠ 0 ∧ !halt then length - 1 else length

/-! ## Envelopes (R269) -/

/-- The envelope clock (R269). -/
def Envelope.clock (e : Envelope) : Envelope :=
  if e.start then { e with start := false, decay := 15, div := e.vol }
  else if e.div = 0 then
    { e with div := e.vol, decay := if e.decay ≠ 0 then e.decay - 1 else if e.halt then 15 else e.decay }
  else { e with div := e.div - 1 }

/-- `Vol`, the channel's volume (R269). -/
def Envelope.volume (e : Envelope) : Nat := if e.constvol then e.vol.toNat else e.decay.toNat

/-- A write of the volume register's low six bits: halt, constant volume, volume (R280, R282). -/
def Envelope.write (e : Envelope) (v : Byte) : Envelope :=
  { e with halt := v.getLsbD 5, constvol := v.getLsbD 4, vol := v.extractLsb 3 0 }

/-! ## Pulse channels (R270 to R272) -/

/-- `Target` of the sweep unit, an integer; `one` is true of pulse 1 (R270). -/
def Pulse.target (one : Bool) (p : Pulse) : Int :=
  let period : Int := p.period.toNat
  let change : Int := (p.period >>> p.sweepShift.toNat).toNat
  if p.sweepNeg then period - change - (if one then 1 else 0) else period + change

/-- `Muted` (R270). -/
def Pulse.muted (one : Bool) (p : Pulse) : Bool := decide (p.period.toNat < 8) || decide (p.target one > 0x7FF)

/-- `SweepClock()` (R270). -/
def Pulse.sweepClock (one : Bool) (p : Pulse) : Pulse :=
  { p with
    period :=
      if p.sweepDiv = 0 ∧ p.sweepEn ∧ p.sweepShift ≠ 0 ∧ !p.muted one then BitVec.ofInt 11 (p.target one) else p.period
    sweepDiv := if p.sweepDiv = 0 ∨ p.sweepReload then p.sweepPeriod else p.sweepDiv - 1
    sweepReload := if p.sweepDiv = 0 ∨ p.sweepReload then false else p.sweepReload }

/-- `PulseTimerTick` (R271): the generic timer step with `N = period + 1`, clocking the duty position. -/
def Pulse.timerTick (p : Pulse) : Pulse :=
  if p.timer = 0 then { p with timer := p.period, seq := p.seq - 1 } else { p with timer := p.timer - 1 }

/-- The duty sequences `DUTY[d]` (R272). -/
def dutyTable : List (List Nat) :=
  [[0, 1, 0, 0, 0, 0, 0, 0], [0, 1, 1, 0, 0, 0, 0, 0], [0, 1, 1, 1, 1, 0, 0, 0], [1, 0, 0, 1, 1, 1, 1, 1]]

/-- `PulseOut(p)` (R272). -/
def Pulse.output (one : Bool) (p : Pulse) : Nat :=
  if p.length = 0 ∨ p.muted one ∨ tableEntry (dutyTable.getD p.duty.toNat []) p.seq.toNat = 0 then 0 else p.env.volume

/-- A write of pulse register `base + r` (R280). -/
def Pulse.write (p : Pulse) (r : Nat) (v : Byte) : Pulse :=
  match r with
  | 0 => { p with duty := v.extractLsb 7 6, env := p.env.write v }
  | 1 => { p with sweepEn := v.getLsbD 7, sweepPeriod := v.extractLsb 6 4, sweepNeg := v.getLsbD 3,
                  sweepShift := v.extractLsb 2 0, sweepReload := true }
  | 2 => { p with period := p.period.extractLsb 10 8 ++ v }
  | _ => { p with period := v.extractLsb 2 0 ++ p.period.extractLsb 7 0, length := lengthLoad p.enabled p.length v,
                  seq := 0, env := { p.env with start := true } }

/-- The enable bit of a pulse (R284): a disable clears the length counter. -/
def Pulse.setEnabled (p : Pulse) (on : Bool) : Pulse := { p with enabled := on, length := if on then p.length else 0 }

/-! ## Triangle channel (R273, R274) -/

/-- `TriangleTimerTick()` (R273): `N = period + 1`, clocking the sequence while both counters are non-zero. -/
def Triangle.timerTick (t : Triangle) : Triangle :=
  if t.timer = 0 then { t with timer := t.period, seq := if t.length ≠ 0 ∧ t.lin ≠ 0 then t.seq + 1 else t.seq }
  else { t with timer := t.timer - 1 }

/-- The linear-counter clock (R273). -/
def Triangle.linearClock (t : Triangle) : Triangle :=
  { t with
    lin := if t.linReload then t.linReloadVal else if t.lin ≠ 0 then t.lin - 1 else t.lin
    linReload := if t.control then t.linReload else false }

/-- `TriOut = TRI[seq]` (R274). -/
def Triangle.output (t : Triangle) : Nat := if t.seq.toNat ≤ 15 then 15 - t.seq.toNat else t.seq.toNat - 16

/-- A write of triangle register `0x4008 + r` (R281). -/
def Triangle.write (t : Triangle) (r : Nat) (v : Byte) : Triangle :=
  match r with
  | 0 => { t with control := v.getLsbD 7, linReloadVal := v.extractLsb 6 0 }
  | 1 => t
  | 2 => { t with period := t.period.extractLsb 10 8 ++ v }
  | _ => { t with period := v.extractLsb 2 0 ++ t.period.extractLsb 7 0, length := lengthLoad t.enabled t.length v,
                  linReload := true }

/-- The enable bit of the triangle (R284). -/
def Triangle.setEnabled (t : Triangle) (on : Bool) : Triangle :=
  { t with enabled := on, length := if on then t.length else 0 }

/-! ## Noise channel (R275) -/

/-- `NOISE_P` in APU ticks (R275). -/
def noisePeriods : List Nat := [2, 4, 8, 16, 32, 48, 64, 80, 101, 127, 190, 254, 381, 508, 1017, 2034]

/-- One clock of the shift register (R275). -/
def noiseShift (mode : Bool) (lfsr : BitVec 15) : BitVec 15 :=
  BitVec.ofBool (lfsr.getLsbD 0 ^^ (if mode then lfsr.getLsbD 6 else lfsr.getLsbD 1)) ++ lfsr.extractLsb 14 1

/-- `NoiseTimerTick()` (R275). -/
def Noise.timerTick (c : Noise) : Noise :=
  if c.timer = 0 then
    { c with timer := BitVec.ofNat 12 (tableEntry noisePeriods c.periodIdx.toNat - 1), lfsr := noiseShift c.mode c.lfsr }
  else { c with timer := c.timer - 1 }

/-- `NoiseOut` (R275). -/
def Noise.output (c : Noise) : Nat := if c.length = 0 ∨ c.lfsr.getLsbD 0 then 0 else c.env.volume

/-- A write of noise register `0x400C + r` (R282). -/
def Noise.write (c : Noise) (r : Nat) (v : Byte) : Noise :=
  match r with
  | 0 => { c with env := c.env.write v }
  | 1 => c
  | 2 => { c with mode := v.getLsbD 7, periodIdx := v.extractLsb 3 0 }
  | _ => { c with length := lengthLoad c.enabled c.length v, env := { c.env with start := true } }

/-- The enable bit of the noise channel (R284). -/
def Noise.setEnabled (c : Noise) (on : Bool) : Noise := { c with enabled := on, length := if on then c.length else 0 }

/-! ## DMC output unit and registers (R277, R283) -/

/-- `DMC_P`, the rates in APU ticks (R277). -/
def dmcPeriods : List Nat := [214, 190, 170, 160, 143, 127, 113, 107, 95, 80, 71, 64, 53, 42, 36, 27]

/-- The output level after one clock: the bit shifted out moves it by 2 within 0 to 127 (R277). -/
def dmcLevel (d : Dmc) : BitVec 7 :=
  if d.silence then d.level
  else if d.shift.getLsbD 0 then (if d.level.toNat ≤ 125 then d.level + 2 else d.level)
  else if d.level.toNat ≥ 2 then d.level - 2
  else d.level

/-- One clock of the output unit (R277): the eighth bit starts the next byte, or silence. -/
def Dmc.outputClock (d : Dmc) : Dmc :=
  let d1 := { d with level := dmcLevel d, shift := d.shift >>> 1, bitsLeft := d.bitsLeft - 1 }
  if d1.bitsLeft = 0 then
    if d1.bufferFull then { d1 with bitsLeft := 8, silence := false, shift := d1.buffer, bufferFull := false }
    else { d1 with bitsLeft := 8, silence := true }
  else d1

/-- `DmcTimerTick()` (R277). -/
def Dmc.timerTick (d : Dmc) : Dmc :=
  if d.timer = 0 then
    ({ d with timer := BitVec.ofNat 9 (tableEntry dmcPeriods d.rateIdx.toNat - 1) } : Dmc).outputClock
  else { d with timer := d.timer - 1 }

/-- A write of DMC register `0x4010 + r` (R283). -/
def Dmc.write (d : Dmc) (r : Nat) (v : Byte) : Dmc :=
  match r with
  | 0 => { d with irqEn := v.getLsbD 7, loop := v.getLsbD 6, rateIdx := v.extractLsb 3 0,
                  irqFlag := d.irqFlag && v.getLsbD 7 }
  | 1 => { d with level := v.extractLsb 6 0 }
  | 2 => { d with sampleAddr := 0xC000 + BitVec.ofNat 16 (v.toNat * 64) }
  | _ => { d with sampleLen := BitVec.ofNat 12 (v.toNat * 16 + 1) }

/-! ## Frame sequencer (R263, R264, R286) -/

/-- `Quarter()` (R264): envelopes and the linear counter. -/
def Apu.quarter (a : Apu) : Apu :=
  { a with
    pulse1 := { a.pulse1 with env := a.pulse1.env.clock }
    pulse2 := { a.pulse2 with env := a.pulse2.env.clock }
    noise := { a.noise with env := a.noise.env.clock }
    triangle := a.triangle.linearClock }

/-- `Half()` (R264): the four length counters, then the sweep units. -/
def Apu.half (a : Apu) : Apu :=
  { a with
    pulse1 := ({ a.pulse1 with length := lengthClock a.pulse1.env.halt a.pulse1.length } : Pulse).sweepClock true
    pulse2 := ({ a.pulse2 with length := lengthClock a.pulse2.env.halt a.pulse2.length } : Pulse).sweepClock false
    triangle := { a.triangle with length := lengthClock a.triangle.control a.triangle.length }
    noise := { a.noise with length := lengthClock a.noise.env.halt a.noise.length } }

/-- Set the sequencer's count. -/
def Apu.setCount (a : Apu) (n : Nat) : Apu := { a with frame := { a.frame with fcount := n } }

/-- Set the frame-interrupt flag. -/
def Apu.setFrameIrq (a : Apu) (b : Bool) : Apu := { a with frame := { a.frame with frameIrq := b } }

/-- Does the sequencer's tick raise the frame interrupt: the last step of 4-step mode, not inhibited? (R263) -/
def Apu.frameIrqDue (a : Apu) : Bool :=
  !a.frame.mode5 && a.frame.fcount + 1 == 14914 && !a.frame.irqInhibit

/-- `FrameSequencerTick()` on the APU's own state (R263). -/
def Apu.frameTick (a : Apu) : Apu :=
  let a1 := a.setCount (a.frame.fcount + 1)
  match a.frame.mode5, a.frame.fcount + 1 with
  | _, 3728 => a1.quarter
  | _, 7456 => a1.quarter.half
  | _, 11185 => a1.quarter
  | false, 14914 => (a1.quarter.half.setFrameIrq (a.frame.frameIrq || !a.frame.irqInhibit)).setCount 0
  | true, 18640 => a1.quarter.half.setCount 0
  | _, _ => a1

/-- The timer steps of one APU tick, in the order of R262: the triangle's twice. -/
def Apu.timersTick (a : Apu) : Apu :=
  { a with
    pulse1 := a.pulse1.timerTick
    pulse2 := a.pulse2.timerTick
    triangle := a.triangle.timerTick.timerTick
    noise := a.noise.timerTick
    dmc := a.dmc.timerTick }

/-- Frame-counter write, 0x4017 (R286). -/
def Apu.writeFrameCounter (a : Apu) (v : Byte) : Apu :=
  let a1 : Apu :=
    { a with frame := { mode5 := v.getLsbD 7, irqInhibit := v.getLsbD 6, frameIrq := a.frame.frameIrq && !v.getLsbD 6,
                        fcount := 0 } }
  if v.getLsbD 7 then a1.quarter.half else a1

/-! ## Channel registers, enables and status (R280 to R285) -/

/-- A write to a channel register 0x4000-0x4013, by its offset (R280 to R283). -/
def Apu.writeChannel (a : Apu) (r : Nat) (v : Byte) : Apu :=
  if r < 0x04 then { a with pulse1 := a.pulse1.write r v }
  else if r < 0x08 then { a with pulse2 := a.pulse2.write (r - 0x04) v }
  else if r < 0x0C then { a with triangle := a.triangle.write (r - 0x08) v }
  else if r < 0x10 then { a with noise := a.noise.write (r - 0x0C) v }
  else { a with dmc := a.dmc.write (r - 0x10) v }

/-- The part of a 0x4015 write before the DMC reader's check (R284): the enables, the DMC flag, and the DMC's stop or the
start of a new sample. -/
def Apu.writeEnables (a : Apu) (v : Byte) : Apu :=
  { a with
    pulse1 := a.pulse1.setEnabled (v.getLsbD 0)
    pulse2 := a.pulse2.setEnabled (v.getLsbD 1)
    triangle := a.triangle.setEnabled (v.getLsbD 2)
    noise := a.noise.setEnabled (v.getLsbD 3)
    dmc := { a.dmc with
      irqFlag := false
      curAddr := if v.getLsbD 4 && a.dmc.bytesLeft == 0 then a.dmc.sampleAddr else a.dmc.curAddr
      bytesLeft :=
        if v.getLsbD 4 then (if a.dmc.bytesLeft = 0 then a.dmc.sampleLen else a.dmc.bytesLeft) else 0 } }

/-- Does a 0x4015 write start a sample, and so run the DMC reader's check? (R284) -/
def Apu.startsSample (a : Apu) (v : Byte) : Bool := v.getLsbD 4 && a.dmc.bytesLeft == 0

/-- The status byte of a 0x4015 read, with `d` the open-bus draw (R285): `NonzeroCounter()` of each channel (R287). -/
def Apu.status (a : Apu) (d : Byte) : Byte :=
  BitVec.ofBool a.dmc.irqFlag ++ BitVec.ofBool a.frame.frameIrq ++ d.extractLsb 0 0 ++
    BitVec.ofBool (a.dmc.bytesLeft != 0) ++ BitVec.ofBool (a.noise.length != 0) ++
    BitVec.ofBool (a.triangle.length != 0) ++ BitVec.ofBool (a.pulse2.length != 0) ++
    BitVec.ofBool (a.pulse1.length != 0)

/-- Status read, 0x4015 (R285): the read clears the frame flag. -/
def readApuStatus (s : State) : Byte × State :=
  let d := draw s
  (s.apu.status d.1, d.2.withApu (s.apu.setFrameIrq false))

/-! ## Mixer (R288) -/

/-- `PULSE_T[n]` (R288), an exact rational. -/
def pulseMix (n : Nat) : Rat := if n = 0 then 0 else (9552 / 100) / (8128 / (n : Rat) + 100)

/-- `TND_T[n]` (R288), an exact rational. -/
def tndMix (n : Nat) : Rat := if n = 0 then 0 else (16367 / 100) / (24329 / (n : Rat) + 100)

/-- The index into the pulse table, 0 to 30 (R288). -/
def Apu.pulseIndex (a : Apu) : Nat := a.pulse1.output true + a.pulse2.output false

/-- The index into the other table, 0 to 202 (R288): `DmcOut` is the level (R277). -/
def Apu.tndIndex (a : Apu) : Nat := 3 * a.triangle.output + 2 * a.noise.output + a.dmc.level.toNat

/-- `Output()` (R288). -/
def Apu.output (a : Apu) : Rat := pulseMix a.pulseIndex + tndMix a.tndIndex

/-- The frame sequencer's tick with its interrupt (R263, R265). -/
def frameSequencerTick (s : State) : State :=
  raiseInterrupt (if s.apu.frameIrqDue then .irqBrk else .none) (s.withApu s.apu.frameTick)

end Sys2Proof.Machine
end

