-- ==== Sys2Proof/Machine/Mapper.lean ====
section
/-! DEFINITION. The mapper (52_cartridge_mapper.md): windows, their check, mirroring, CHR access and register writes. -/

namespace Sys2Proof.Machine

/-- The mapper's number (R47). -/
def Mapper.number : Mapper → Nat
  | .mapper0 => 0
  | .mapper1 _ => 1
  | .mapper2 _ => 2
  | .mapper3 _ => 3
  | .mapper4 _ => 4

/-! ## Windows as a function of the registers (R326); `n` is `prg_pages` -/

/-- The CHR windows 0 to 7 of an 8 KiB bank. -/
def chrBank8 (bank : Nat) : Vector Nat 8 :=
  #v[8 * bank, 8 * bank + 1, 8 * bank + 2, 8 * bank + 3, 8 * bank + 4, 8 * bank + 5, 8 * bank + 6, 8 * bank + 7]

/-- Mapper 1's PRG windows (R333): `m = control[3:2]`, `b = prg[3:0]`. -/
def Mmc1.prgWindows (r : Mmc1) (n : Nat) : Vector Nat 4 :=
  let b := (r.prg.extractLsb 3 0).toNat
  match (r.control.extractLsb 3 2).toNat with
  | 0 | 1 => #v[4 * (b / 2), 4 * (b / 2) + 1, 4 * (b / 2) + 2, 4 * (b / 2) + 3]
  | 2 => #v[0, 1, 2 * b, 2 * b + 1]
  | _ => #v[2 * b, 2 * b + 1, n - 2, n - 1]

/-- Mapper 1's CHR windows (R334). -/
def Mmc1.chrWindows (r : Mmc1) : Vector Nat 8 :=
  let c0 := r.chr0.toNat
  let c1 := r.chr1.toNat
  if r.control.getLsbD 4 then
    #v[4 * c0, 4 * c0 + 1, 4 * c0 + 2, 4 * c0 + 3, 4 * c1, 4 * c1 + 1, 4 * c1 + 2, 4 * c1 + 3]
  else chrBank8 (c0 / 2)

/-- Mapper 4's PRG windows (R338). -/
def Mmc3.prgWindows (r : Mmc3) (n : Nat) : Vector Nat 4 :=
  let r6 := (r.r[6] &&& 0x3F).toNat
  let r7 := (r.r[7] &&& 0x3F).toNat
  if r.select.getLsbD 6 then #v[n - 2, r7, r6, n - 1] else #v[r6, r7, n - 2, n - 1]

/-- Mapper 4's CHR windows (R338). -/
def Mmc3.chrWindows (r : Mmc3) : Vector Nat 8 :=
  let p0 := (r.r[0] &&& 0xFE).toNat
  let p1 := (r.r[0] ||| 1).toNat
  let p2 := (r.r[1] &&& 0xFE).toNat
  let p3 := (r.r[1] ||| 1).toNat
  let q0 := r.r[2].toNat
  let q1 := r.r[3].toNat
  let q2 := r.r[4].toNat
  let q3 := r.r[5].toNat
  if r.select.getLsbD 7 then #v[q0, q1, q2, q3, p0, p1, p2, p3] else #v[p0, p1, p2, p3, q0, q1, q2, q3]

/-- `Windows(regs)` of a mapper, for `n` PRG pages (R326, R330, R333 to R336, R338). -/
def Mapper.windows (m : Mapper) (n : Nat) : Windows :=
  match m with
  | .mapper0 => ⟨#v[0, 1, n - 2, n - 1], chrBank8 0⟩
  | .mapper1 r => ⟨r.prgWindows n, r.chrWindows⟩
  | .mapper2 bank => ⟨#v[2 * bank.toNat, 2 * bank.toNat + 1, n - 2, n - 1], chrBank8 0⟩
  | .mapper3 bank => ⟨#v[0, 1, n - 2, n - 1], chrBank8 bank.toNat⟩
  | .mapper4 r => ⟨r.prgWindows n, r.chrWindows⟩

/-- The windows in the order they are checked: PRG 0 to 3, then CHR 0 to 7. The order is the model's, DESIGN CHOICE (log
entry 14): R327 and R380 do not say which window `BANK_OVERFLOW` names where several miss. -/
def allWindows : List Window :=
  (List.finRange 4).map Window.prg ++ (List.finRange 8).map Window.chr

/-- Does the window name a page the cartridge lacks? `n` PRG pages, `c` CHR pages (R327). -/
def Windows.misses (w : Windows) (n c : Nat) : Window → Bool
  | .prg i => decide (n ≤ w.prg[i])
  | .chr j => decide (c ≤ w.chr[j])

/-- A window that names a missing page, if one does (R327): the first in the order of `allWindows`, DESIGN CHOICE (log entry
14). -/
def Windows.overflow (w : Windows) (n c : Nat) : Option Window := allWindows.find? (w.misses n c)

/-! ## Mirroring (R325) -/

/-- A nametable mirroring mode (R325). -/
inductive Mirroring where
  | horizontal
  | vertical
  | singleLower
  | singleUpper
deriving DecidableEq, Repr

/-- The header's mode: bit 0 is horizontal, 1 vertical (R325). -/
def headerMirroring (bit : Bool) : Mirroring := if bit then .vertical else .horizontal

/-- Mapper 1's mode, `control[1:0]` (R334). -/
def Mmc1.mirroring (r : Mmc1) : Mirroring :=
  match (r.control.extractLsb 1 0).toNat with
  | 0 => .singleLower
  | 1 => .singleUpper
  | 2 => .vertical
  | _ => .horizontal

/-- The mapper's current mirroring mode (R325). -/
def State.mirroring (s : State) : Mirroring :=
  match s.mapper with
  | .mapper1 r => r.mirroring
  | .mapper4 r => if r.mirror then .horizontal else .vertical
  | .mapper0 => headerMirroring s.cart.hdrMirroring
  | .mapper2 _ => headerMirroring s.cart.hdrMirroring
  | .mapper3 _ => headerMirroring s.cart.hdrMirroring

/-- `Mirror(mode, n)`: the physical nametable of logical table `n` (R73). -/
def mirrorOf (mode : Mirroring) (n : Nat) : Nat :=
  match mode with
  | .horizontal => n / 2
  | .vertical => n % 2
  | .singleLower => 0
  | .singleUpper => 1

/-! ## CHR access (R72) -/

/-- The CHR page that a PPU address below 0x2000 reaches: the index held by window `a >> 10` (R72). -/
def chrPageOf (s : State) (a : Nat) : Nat := s.win.chr[(a / 0x400) % 8]'(Nat.mod_lt _ (by decide))

/-- `ReadCHR(a)` (R72): no side effect (R229). -/
def readChr (s : State) (a : Nat) : Byte := pageByte s.cart.chr (chrPageOf s a) (a % 0x400)

/-- `WriteCHR(a, v)` (R72): the same byte if the cartridge has CHR-RAM, fatal otherwise. A page the cartridge lacks holds
nothing and takes nothing (log entry 5). -/
def writeChr (a : PpuAddr) (v : Byte) (s : State) : Res Unit :=
  if s.cart.chrIsRam then
    let page := chrPageOf s a.toNat
    .ok () { s with cart := { s.cart with chr := s.cart.chr.modify page (fun m => m.write (a.toNat % 0x400) v) } }
  else raise (.chrRomWrite a v) s

/-! ## Register writes (R329) -/

/-- What a register write does to the mapper's registers: there is none to write; they change and the windows are
recomputed; they change and the windows stay. -/
inductive MapperWrite where
  | noRegister
  | recompute (m : Mapper)
  | keepWindows (m : Mapper)
deriving DecidableEq, Repr

/-- Mapper 1's register write (R332): a set bit 7 aborts and forces PRG mode 3; otherwise bit 0 is shifted in, and the fifth
bit loads the register that address bits 14:13 choose. -/
def Mmc1.write (r : Mmc1) (a : Word) (v : Byte) : MapperWrite :=
  if v.getLsbD 7 then
    .recompute (.mapper1 { r with shift := 0, count := 0, control := r.control ||| 0x0C })
  else
    let shifted : BitVec 5 := BitVec.ofBool (v.getLsbD 0) ++ r.shift.extractLsb 4 1
    if r.count + 1 = 5 then
      let fresh : Mmc1 := { r with shift := 0, count := 0 }
      match (a.extractLsb 14 13).toNat with
      | 0 => .recompute (.mapper1 { fresh with control := shifted })
      | 1 => .recompute (.mapper1 { fresh with chr0 := shifted })
      | 2 => .recompute (.mapper1 { fresh with chr1 := shifted })
      | _ => .recompute (.mapper1 { fresh with prg := shifted })
    else .keepWindows (.mapper1 { r with shift := shifted, count := r.count + 1 })

/-- Mapper 4's register write (R337), by address bits 14:13 and 0. -/
def Mmc3.write (r : Mmc3) (a : Word) (v : Byte) : MapperWrite :=
  match (a.extractLsb 14 13).toNat, a.getLsbD 0 with
  | 0, false => .recompute (.mapper4 { r with select := v })
  | 0, true => .recompute (.mapper4 { r with r := r.r.set (r.select.toNat % 8) v (Nat.mod_lt _ (by decide)) })
  | 1, false => .recompute (.mapper4 { r with mirror := v.getLsbD 0 })
  | _, _ => .keepWindows (.mapper4 r)

/-- `WriteRegister(a, v)` by mapper (R329, R330, R332, R335 to R337). -/
def Mapper.write (m : Mapper) (a : Word) (v : Byte) : MapperWrite :=
  match m with
  | .mapper0 => .noRegister
  | .mapper1 r => r.write a v
  | .mapper2 _ => .recompute (.mapper2 v)
  | .mapper3 _ => .recompute (.mapper3 v)
  | .mapper4 r => r.write a v

/-- `MapperWrite(a, v)` (R70, R329): the registers change, then the windows are recomputed and checked (R326, R327). Where the
check fails, the registers written before it stay written (R17, R332) and no window changes (R328; log entry 6). -/
def mapperWrite (a : Word) (v : Byte) (s : State) : Res Unit :=
  match s.mapper.write a v with
  | .noRegister => raise (.prgRomWrite a v) s
  | .keepWindows m => .ok () { s with mapper := m }
  | .recompute m =>
    match (m.windows s.cart.prgPages).overflow s.cart.prgPages s.cart.chrPages with
    | some w => raise (.bankOverflow a v w) { s with mapper := m }
    | none => .ok () { s with mapper := m, win := m.windows s.cart.prgPages }

end Sys2Proof.Machine
end

