-- ==== Sys2Proof/Machine/PpuRegs.lean ====
section
/-! DEFINITION. The PPU's address space (R71 to R74) and its CPU-facing registers (R201 to R214). -/

namespace Sys2Proof.Machine

/-- The state with another PPU in it. -/
def State.withPpu (s : State) (p : Ppu) : State := { s with ppu := p }

/-! ## The fields of ctrl, mask, v and t (R29, R30, R33) -/

/-- `ctrl.INC` (R29). -/
def Ppu.inc32 (p : Ppu) : Bool := p.ctrl.getLsbD 2

/-- `ctrl.SPT * 0x1000`, the pattern table of 8 x 8 sprites (R29). -/
def Ppu.spriteTable (p : Ppu) : Nat := if p.ctrl.getLsbD 3 then 0x1000 else 0

/-- `ctrl.BPT * 0x1000`, the pattern table of the background (R29). -/
def Ppu.backgroundTable (p : Ppu) : Nat := if p.ctrl.getLsbD 4 then 0x1000 else 0

/-- `ctrl.SZ`: are sprites 8 x 16? (R29) -/
def Ppu.tallSprites (p : Ppu) : Bool := p.ctrl.getLsbD 5

/-- `ctrl.NMIE` (R29). -/
def Ppu.nmiEnabled (p : Ppu) : Bool := p.ctrl.getLsbD 7

/-- `mask.BGL` (R30). -/
def Ppu.backgroundLeft (p : Ppu) : Bool := p.mask.getLsbD 1

/-- `mask.SPL` (R30). -/
def Ppu.spritesLeft (p : Ppu) : Bool := p.mask.getLsbD 2

/-- `mask.BG` (R30). -/
def Ppu.background (p : Ppu) : Bool := p.mask.getLsbD 3

/-- `mask.SP` (R30). -/
def Ppu.sprites (p : Ppu) : Bool := p.mask.getLsbD 4

/-- "Rendering enabled" (R30). -/
def Ppu.rendering (p : Ppu) : Bool := p.background || p.sprites

/-- A VRAM address put together from fine Y, the nametable bits Y and X, coarse Y and coarse X (R33). -/
def vramAddr (fineY : BitVec 3) (ntY ntX : BitVec 1) (coarseY coarseX : BitVec 5) : BitVec 15 :=
  fineY ++ ntY ++ ntX ++ coarseY ++ coarseX

/-- Fine Y, bits 14:12 (R33). -/
def fineY (v : BitVec 15) : BitVec 3 := v.extractLsb 14 12

/-- Nametable Y select, bit 11 (R33). -/
def ntY (v : BitVec 15) : BitVec 1 := v.extractLsb 11 11

/-- Nametable X select, bit 10 (R33). -/
def ntX (v : BitVec 15) : BitVec 1 := v.extractLsb 10 10

/-- Coarse Y, bits 9:5 (R33). -/
def coarseY (v : BitVec 15) : BitVec 5 := v.extractLsb 9 5

/-- Coarse X, bits 4:0 (R33). -/
def coarseX (v : BitVec 15) : BitVec 5 := v.extractLsb 4 0

/-! ## The PPU's memory (R71 to R74) -/

/-- The place in `ciram` that a nametable address reaches through the mirroring (R73). -/
def ciramPlace (s : State) (a : Nat) : Nat :=
  let o := a % 0x1000
  mirrorOf s.mirroring (o / 0x400) * 0x400 + o % 0x400

/-- A nametable byte (R73). -/
def readNametable (s : State) (a : Nat) : Byte := s.ppu.ciram.read (ciramPlace s a)

/-- The palette entry of a palette address or index: its low five bits, with the mirror of 0x10, 0x14, 0x18, 0x1C (R74). -/
def palIndex (a : Nat) : Nat :=
  let i := a % 0x20
  if i = 0x10 ∨ i = 0x14 ∨ i = 0x18 ∨ i = 0x1C then i - 0x10 else i

/-- A palette entry, 6 bits (R37, R74). -/
def Ppu.palEntry (p : Ppu) (a : Nat) : BitVec 6 := Table.get 0 p.pal (palIndex a)

/-- `PpuRead(a)` (R71 to R74): a palette read has its two high bits from the open bus. -/
def ppuRead (a : PpuAddr) (s : State) : Byte × State :=
  if a.toNat < 0x2000 then (readChr s a.toNat, s)
  else if a.toNat < 0x3F00 then (readNametable s a.toNat, s)
  else
    let d := draw s
    (d.1.extractLsb 1 0 ++ s.ppu.palEntry a.toNat, d.2)

/-- `PpuWrite(a, v)` (R71 to R74): a palette entry takes the low 6 bits. -/
def ppuWrite (a : PpuAddr) (v : Byte) (s : State) : Res Unit :=
  if a.toNat < 0x2000 then writeChr a v s
  else if a.toNat < 0x3F00 then
    .ok () (s.withPpu { s.ppu with ciram := s.ppu.ciram.write (ciramPlace s a.toNat) v })
  else
    .ok () (s.withPpu { s.ppu with pal := Table.set 0 s.ppu.pal (palIndex a.toNat) (v.extractLsb 5 0) })

/-- `v[13:0]`, the part of v that addresses the PPU's memory (R33). -/
def Ppu.vramPlace (p : Ppu) : PpuAddr := p.v.extractLsb 13 0

/-- The increment of v after a 0x2007 access: 1, or 32 with `ctrl.INC` (R211, R213). -/
def Ppu.advanceV (p : Ppu) : Ppu := { p with v := p.v + if p.inc32 then 32 else 1 }

/-! ## Register reads (R203) -/

/-- Status read, 0x2002 (R205). -/
def readPpuStatus (s : State) : Byte × State :=
  let d := draw s
  let r : Byte :=
    BitVec.ofBool s.ppu.vbl ++ BitVec.ofBool s.ppu.s0 ++ BitVec.ofBool s.ppu.ovf ++ d.1.extractLsb 4 0
  let atSet := decide (s.ppu.scanline = Config.vblankBegin)
  let s1 := d.2.withPpu
    { s.ppu with
      nmiInhibit := s.ppu.nmiInhibit || (atSet && s.ppu.pixel == 0)
      vbl := false
      w := false }
  (r, raiseInterrupt (if atSet && s.ppu.pixel == 1 then .cancelNmi else .none) s1)

/-- OAM data read, 0x2004 (R209). -/
def readOamData (s : State) : Byte × State := (s.ppu.oam.read s.ppu.oamaddr.toNat, s)

/-- Data read, 0x2007 (R211): below the palette the old buffer is returned and the byte at v refills it; at the palette the
entry is returned and the nametable byte under it fills the buffer. -/
def readPpuData (s : State) : Byte × State :=
  let a := s.ppu.vramPlace
  if a.toNat < 0x3F00 then
    let b := ppuRead a s
    (s.ppu.buffer, b.2.withPpu { b.2.ppu with buffer := b.1 }.advanceV)
  else
    let r := ppuRead a s
    let b := ppuRead (a - 0x1000) r.2
    (r.1, b.2.withPpu { b.2.ppu with buffer := b.1 }.advanceV)

/-- `PpuRegRead(r)` of register `0x2000 + r` (R203, R201). -/
def ppuRegRead (r : Nat) (s : State) : Byte × State :=
  match r with
  | 2 => readPpuStatus s
  | 4 => readOamData s
  | 7 => readPpuData s
  | _ => draw s

/-! ## Register writes (R204) -/

/-- PPUCTRL write, 0x2000 (R206). -/
def Ppu.writeCtrl (p : Ppu) (v : Byte) : Ppu :=
  { p with ctrl := v, t := p.t.extractLsb 14 12 ++ v.extractLsb 1 0 ++ p.t.extractLsb 9 0 }

/-- PPUMASK write, 0x2001 (R207). -/
def Ppu.writeMask (p : Ppu) (v : Byte) : Ppu := { p with mask := v }

/-- OAMADDR write, 0x2003 (R208). -/
def Ppu.writeOamAddr (p : Ppu) (v : Byte) : Ppu := { p with oamaddr := v }

/-- OAMDATA write, 0x2004 (R208). -/
def Ppu.writeOamData (p : Ppu) (v : Byte) : Ppu :=
  { p with oam := p.oam.write p.oamaddr.toNat v, oamaddr := p.oamaddr + 1 }

/-- PPUSCROLL write, 0x2005 (R210). -/
def Ppu.writeScroll (p : Ppu) (v : Byte) : Ppu :=
  if p.w then
    { p with t := v.extractLsb 2 0 ++ p.t.extractLsb 11 10 ++ v.extractLsb 7 3 ++ p.t.extractLsb 4 0, w := false }
  else
    { p with t := p.t.extractLsb 14 5 ++ v.extractLsb 7 3, x := v.extractLsb 2 0, w := true }

/-- PPUADDR write, 0x2006 (R212). -/
def Ppu.writeAddr (p : Ppu) (v : Byte) : Ppu :=
  if p.w then
    let t : BitVec 15 := p.t.extractLsb 14 8 ++ v
    { p with t := t, v := t, w := false }
  else
    { p with t := 0#1 ++ v.extractLsb 5 0 ++ p.t.extractLsb 7 0, w := true }

/-- PPUDATA write, 0x2007 (R213). -/
def writePpuData (v : Byte) (s : State) : Res Unit :=
  (ppuWrite s.ppu.vramPlace v s).bind fun _ s => .ok () (s.withPpu s.ppu.advanceV)

/-- `PpuRegWrite(r, v)` of register `0x2000 + r` (R204, R201): a write to 0x2002 has no effect (D22). -/
def ppuRegWrite (r : Nat) (v : Byte) (s : State) : Res Unit :=
  match r with
  | 0 => .ok () (s.withPpu (s.ppu.writeCtrl v))
  | 1 => .ok () (s.withPpu (s.ppu.writeMask v))
  | 3 => .ok () (s.withPpu (s.ppu.writeOamAddr v))
  | 4 => .ok () (s.withPpu (s.ppu.writeOamData v))
  | 5 => .ok () (s.withPpu (s.ppu.writeScroll v))
  | 6 => .ok () (s.withPpu (s.ppu.writeAddr v))
  | 7 => writePpuData v s
  | _ => .ok () s

end Sys2Proof.Machine
end

