-- ==== Sys2Proof/Machine/Bus.lean ====
section
/-! DEFINITION. The coordinator's bus: every CPU-bus read and write (R61 to R70), the controllers (R369, R370), the DMC
memory reader (R276) and OAM DMA (R360). -/

namespace Sys2Proof.Machine

/-! ## The CPU memory map (R61) -/

/-- The handlers of the CPU's address space (R61). -/
inductive Region where
  | workRam
  | ppuRegs
  | io
  | unmapped
  | sram
  | prg
deriving DecidableEq, Repr

/-- The one handler of an address (R61, R67). -/
def regionOf (a : Word) : Region :=
  if a.toNat < 0x2000 then .workRam
  else if a.toNat < 0x4000 then .ppuRegs
  else if a.toNat < 0x4018 then .io
  else if a.toNat < 0x6000 then .unmapped
  else if a.toNat < 0x8000 then .sram
  else .prg

/-- The place in work RAM of an address below 0x2000 (R64). -/
def ramPlace (a : Word) : Nat := a.toNat % 0x800

/-- The place in SRAM of an address in 0x6000-0x7FFF (R68). -/
def sramPlace (a : Word) : Nat := a.toNat - 0x6000

/-- The byte of memory at an address: work RAM, SRAM or PRG; none where a device or nothing answers. Looking has no effect. -/
def State.byteAt (s : State) (a : Word) : Option Byte :=
  match regionOf a with
  | .workRam => some (s.ram.read (ramPlace a))
  | .sram => some (s.sram.read (sramPlace a))
  | .prg => some (prgRead s a)
  | .ppuRegs => none
  | .io => none
  | .unmapped => none

/-! ## Controllers -/

/-- Strobe, a write to 0x4016 (R369): the falling edge latches both snapshots. -/
def Pads.writeStrobe (p : Pads) (v : Byte) : Pads :=
  if p.strobe && !v.getLsbD 0 then
    { pad0 := { p.pad0 with shift := p.pad0.buttons }, pad1 := { p.pad1 with shift := p.pad1.buttons }, strobe := false }
  else { p with strobe := v.getLsbD 0 }

/-- The bit a serial read gives (R370): button A while strobed, else the shift register's low bit. -/
def Pad.bit (p : Pad) (strobe : Bool) : Bool := if strobe then p.buttons.getLsbD 0 else p.shift.getLsbD 0

/-- The shift of a serial read (R370): none while strobed, else a 1 comes in at the top. -/
def Pad.shifted (p : Pad) (strobe : Bool) : Pad :=
  if strobe then p else { p with shift := (p.shift >>> 1) ||| 0x80 }

/-- The byte of a serial read: bits 7:1 are open bus (R370). -/
def serialByte (d : Byte) (bit : Bool) : Byte := d.extractLsb 7 1 ++ BitVec.ofBool bit

/-- Serial read of controller 1, 0x4016 (R370). -/
def readPad0 (s : State) : Byte × State :=
  let d := draw s
  (serialByte d.1 (s.pads.pad0.bit s.pads.strobe),
    { d.2 with pads := { s.pads with pad0 := s.pads.pad0.shifted s.pads.strobe } })

/-- Serial read of controller 2, 0x4017 (R370). -/
def readPad1 (s : State) : Byte × State :=
  let d := draw s
  (serialByte d.1 (s.pads.pad1.bit s.pads.strobe),
    { d.2 with pads := { s.pads with pad1 := s.pads.pad1.shifted s.pads.strobe } })

/-! ## Reads (R62) -/

/-- `IoRead(a)` by the offset of the address from 0x4000 (R66): write-only registers are open bus. -/
def ioRead (r : Nat) (s : State) : Byte × State :=
  match r with
  | 0x15 => readApuStatus s
  | 0x16 => readPad0 s
  | 0x17 => readPad1 s
  | _ => draw s

/-- An answered read. -/
def answered (r : Byte × State) : Res Byte := .ok r.1 r.2

/-- `MemRead(a, 1)` (R62). -/
def memRead (a : Word) (s : State) : Res Byte :=
  match regionOf a with
  | .workRam => .ok (s.ram.read (ramPlace a)) s
  | .ppuRegs => answered (ppuRegRead (a.toNat % 8) s)
  | .io => answered (ioRead (a.toNat - 0x4000) s)
  | .unmapped => raise (.busUnmappedRead a) s
  | .sram => .ok (s.sram.read (sramPlace a)) s
  | .prg => .ok (prgRead s a) s

/-! ## The DMC memory reader (R276) -/

/-- The DMC after a sample byte `b` has been fetched (R276): the buffer, the address with its wrap, the count, and the loop
or the interrupt flag when the sample is exhausted. -/
def Dmc.fetched (d : Dmc) (b : Byte) : Dmc :=
  let next : Word := if d.curAddr = 0xFFFF then 0x8000 else d.curAddr + 1
  let d1 := { d with buffer := b, bufferFull := true, curAddr := next, bytesLeft := d.bytesLeft - 1 }
  if d1.bytesLeft = 0 then
    if d.loop then { d1 with curAddr := d.sampleAddr, bytesLeft := d.sampleLen }
    else { d1 with irqFlag := d.irqFlag || d.irqEn }
  else d1

/-- Does the fetch exhaust the sample and raise the interrupt? (R276) -/
def Dmc.irqDue (d : Dmc) : Bool := d.bytesLeft - 1 == 0 && !d.loop && d.irqEn

/-- The state with `n` more CPU cycles owed (R52). -/
def State.owe (s : State) (n : Nat) : State := { s with clock := { s.clock with deferred := s.clock.deferred + n } }

/-- `DmcReaderCheck()` (R276). -/
def dmcReaderCheck (s : State) : Res Unit :=
  if s.apu.dmc.bufferFull = false ∧ s.apu.dmc.bytesLeft ≠ 0 then
    (memRead s.apu.dmc.curAddr s).bind fun b s =>
      let d := s.apu.dmc
      .ok () (raiseInterrupt (if d.irqDue then .irqBrk else .none)
        ((s.withApu { s.apu with dmc := d.fetched b }).owe 4))
  else .ok () s

/-! ## OAM DMA (R360) -/

/-- The last `n` of the 256 copies of an OAM DMA from page `page`. -/
def oamDmaCopy (page : Byte) : Nat → State → Res Unit
  | 0, s => .ok () s
  | n + 1, s =>
    let i := BitVec.ofNat 8 (255 - n)
    (memRead (wordOf page i) s).bind fun b s =>
      oamDmaCopy page n (s.withPpu { s.ppu with oam := s.ppu.oam.write (s.ppu.oamaddr + i).toNat b })

/-- OAM DMA, a write of `page` to 0x4014 (R360). -/
def oamDma (page : Byte) (s : State) : Res Unit :=
  (oamDmaCopy page 256 s).bind fun _ s =>
    .ok () { s with clock := { s.clock with dmaCycles := s.clock.dmaCycles + 513 } }

/-! ## Writes (R63) -/

/-- Channel-enable write, 0x4015 (R284). -/
def writeApuEnables (v : Byte) (s : State) : Res Unit :=
  let s1 := s.withApu (s.apu.writeEnables v)
  if s.apu.startsSample v then dmcReaderCheck s1 else .ok () s1

/-- `IoWrite(a, v)` by the offset of the address from 0x4000 (R66). -/
def ioWrite (r : Nat) (v : Byte) (s : State) : Res Unit :=
  match r with
  | 0x14 => oamDma v s
  | 0x15 => writeApuEnables v s
  | 0x16 => .ok () { s with pads := s.pads.writeStrobe v }
  | 0x17 => .ok () (s.withApu (s.apu.writeFrameCounter v))
  | r => .ok () (s.withApu (s.apu.writeChannel r v))

/-- `MemWrite(a, 1, v)` (R63). -/
def memWrite (a : Word) (v : Byte) (s : State) : Res Unit :=
  match regionOf a with
  | .workRam => .ok () { s with ram := s.ram.write (ramPlace a) v }
  | .ppuRegs => ppuRegWrite (a.toNat % 8) v s
  | .io => ioWrite (a.toNat - 0x4000) v s
  | .unmapped => raise (.busUnmappedWrite a v) s
  | .sram => .ok () { s with sram := s.sram.write (sramPlace a) v }
  | .prg => mapperWrite a v s

end Sys2Proof.Machine
end

