-- ==== Sys2Proof/Machine/Flags.lean ====
section
/-! DEFINITION. The results and flags of the instructions, as functions of the CPU and an operand (R110, R111 to R154). -/

namespace Sys2Proof.Machine

/-- `SetNZ(v)` (R110). -/
def Cpu.setNZ (c : Cpu) (v : Byte) : Cpu := { c with z := v == 0, n := v.msb }

/-! ## Loads and transfers (R111 to R122) -/

/-- `A <- m; SetNZ(m)`. -/
def Cpu.loadA (c : Cpu) (m : Byte) : Cpu := { c with a := m }.setNZ m

/-- `X <- m; SetNZ(m)`. -/
def Cpu.loadX (c : Cpu) (m : Byte) : Cpu := { c with x := m }.setNZ m

/-- `Y <- m; SetNZ(m)`. -/
def Cpu.loadY (c : Cpu) (m : Byte) : Cpu := { c with y := m }.setNZ m

/-! ## Add and subtract (R130, R131) -/

/-- The carry in, as an integer. -/
def Cpu.carry (c : Cpu) : Nat := if c.c then 1 else 0

/-- `A + m + C` as integers, 0 to 511 (R130). -/
def Cpu.sum (c : Cpu) (m : Byte) : Nat := c.a.toNat + m.toNat + c.carry

/-- ADC (R130): the sum, its carry, the same-sign overflow test. D has no effect (D1). -/
def Cpu.adc (c : Cpu) (m : Byte) : Cpu :=
  let t := c.sum m
  let r := BitVec.ofNat 8 t
  { c with c := decide (t > 0xFF), v := ((c.a ^^^ r) &&& (m ^^^ r)).msb, a := r }.setNZ r

/-- SBC (R131): ADC of the complement. -/
def Cpu.sbc (c : Cpu) (m : Byte) : Cpu := c.adc (~~~m)

/-! ## Logic, compare and bit test (R132 to R139) -/

/-- AND (R132). -/
def Cpu.andA (c : Cpu) (m : Byte) : Cpu := c.loadA (c.a &&& m)

/-- ORA (R133). -/
def Cpu.orA (c : Cpu) (m : Byte) : Cpu := c.loadA (c.a ||| m)

/-- EOR (R134). -/
def Cpu.eorA (c : Cpu) (m : Byte) : Cpu := c.loadA (c.a ^^^ m)

/-- `Compare(reg, m)` (R135). -/
def Cpu.compare (c : Cpu) (reg m : Byte) : Cpu := { c with c := decide (reg.toNat ≥ m.toNat) }.setNZ (reg - m)

/-- CMP (R136). -/
def Cpu.cmp (c : Cpu) (m : Byte) : Cpu := c.compare c.a m

/-- CPX (R137). -/
def Cpu.cpx (c : Cpu) (m : Byte) : Cpu := c.compare c.x m

/-- CPY (R138). -/
def Cpu.cpy (c : Cpu) (m : Byte) : Cpu := c.compare c.y m

/-- BIT (R139). -/
def Cpu.bit (c : Cpu) (m : Byte) : Cpu := { c with z := (c.a &&& m) == 0, n := m.getLsbD 7, v := m.getLsbD 6 }

/-! ## Read-modify-write results (R140, R141, R151 to R154) -/

/-- What a read-modify-write instruction makes of its operand: the result, and the carry it sets before the result is
written. SetNZ of the result follows the write. -/
structure Modified where
  result : Byte
  carry : Bool
deriving DecidableEq, Repr

/-- INC (R140): C is unchanged. -/
def modInc (c : Cpu) (m : Byte) : Modified := ⟨m + 1, c.c⟩

/-- DEC (R141): C is unchanged. -/
def modDec (c : Cpu) (m : Byte) : Modified := ⟨m - 1, c.c⟩

/-- ASL (R151). -/
def modAsl (_ : Cpu) (m : Byte) : Modified := ⟨m.extractLsb 6 0 ++ 0#1, m.getLsbD 7⟩

/-- LSR (R152). -/
def modLsr (_ : Cpu) (m : Byte) : Modified := ⟨0#1 ++ m.extractLsb 7 1, m.getLsbD 0⟩

/-- ROL (R153). -/
def modRol (c : Cpu) (m : Byte) : Modified := ⟨m.extractLsb 6 0 ++ BitVec.ofBool c.c, m.getLsbD 7⟩

/-- ROR (R154). -/
def modRor (c : Cpu) (m : Byte) : Modified := ⟨BitVec.ofBool c.c ++ m.extractLsb 7 1, m.getLsbD 0⟩

/-- The CPU with the carry of a modification set. -/
def Cpu.withCarry (c : Cpu) (r : Modified) : Cpu := { c with c := r.carry }

end Sys2Proof.Machine
end

