-- ==== Sys2Proof/Machine/Operands.lean ====
section
/-! DEFINITION. The addressing modes (R92 to R103) and the shapes of instructions over them: read, immediate, store,
read-modify-write, accumulator, register and branch (R95, R96, R150, R160). -/

namespace Sys2Proof.Machine

/-- The modes with an effective address, each with its operand bytes (R92). -/
inductive Mode where
  | zp (b1 : Byte)
  | zpX (b1 : Byte)
  | zpY (b1 : Byte)
  | abs (w : Word)
  | absX (w : Word)
  | absY (w : Word)
  | indX (b1 : Byte)
  | indY (b1 : Byte)
deriving DecidableEq, Repr

/-- A byte as a word, `zext_16` (R11). -/
def zext (b : Byte) : Word := b.zeroExtend 16

/-- A byte as a signed offset, `sext_16` (R11). -/
def sext (b : Byte) : Word := b.signExtend 16

/-- A zero-page byte. The zero page is work RAM (R80), so this is what `MemRead` gives there, without effect (R62). -/
def zeroPageByte (s : State) (b : Byte) : Byte := s.ram.read b.toNat

/-- A pointer in the zero page: its high byte wraps within the page (R100, R101). -/
def zeroPageWord (s : State) (b : Byte) : Word := wordOf (zeroPageByte s (b + 1)) (zeroPageByte s b)

/-- The effective address `EA` (R97, R98, R100, R101). -/
def effectiveAddress (m : Mode) (s : State) : Word :=
  match m with
  | .zp b1 => zext b1
  | .zpX b1 => zext (b1 + s.cpu.x)
  | .zpY b1 => zext (b1 + s.cpu.y)
  | .abs w => w
  | .absX w => w + zext s.cpu.x
  | .absY w => w + zext s.cpu.y
  | .indX b1 => zeroPageWord s (b1 + s.cpu.x)
  | .indY b1 => zeroPageWord s b1 + zext s.cpu.y

/-- The pointer's second address in JMP indirect: the next byte of the same page (R99). -/
def pointerHighAddress (p : Word) : Word := wordOf (hiByte p) (loByte p + 1)

/-- The outcome of an instruction. -/
abbrev Result := Host.Outcome State Fault Refusal

/-- The read class with a memory operand: one read of EA, then `f` of the operand (R95, R96). -/
def readInstr (m : Mode) (f : Cpu → Byte → Cpu) (s : State) : Result :=
  ((memRead (effectiveAddress m s) s).bind fun v t => .ok () (t.withCpu (f t.cpu v))).toOutcome

/-- The read class with an immediate operand: no access (R94). -/
def immInstr (b1 : Byte) (f : Cpu → Byte → Cpu) (s : State) : Result := .next (s.withCpu (f s.cpu b1))

/-- The write class: one write of EA, no read (R96). -/
def storeInstr (m : Mode) (v : Cpu → Byte) (s : State) : Result :=
  (memWrite (effectiveAddress m s) (v s.cpu) s).toOutcome

/-- The read-modify-write class with a memory operand: one read, the carry, one write, then SetNZ (R96, R150). -/
def modifyInstr (m : Mode) (f : Cpu → Byte → Modified) (s : State) : Result :=
  let ea := effectiveAddress m s
  ((memRead ea s).bind fun v t =>
    let r := f t.cpu v
    (memWrite ea r.result (t.withCpu (t.cpu.withCarry r))).bind fun _ u =>
      .ok () (u.withCpu (u.cpu.setNZ r.result))).toOutcome

/-- The accumulator form: the value is A and the result goes to A, with no access (R93, R150). -/
def accInstr (f : Cpu → Byte → Modified) (s : State) : Result :=
  let r := f s.cpu s.cpu.a
  .next (s.withCpu ((s.cpu.withCarry r).loadA r.result))

/-- An instruction on the CPU's registers and flags alone. -/
def cpuInstr (f : Cpu → Cpu) (s : State) : Result := .next (s.withCpu (f s.cpu))

/-- A branch (R102, R160): PC is already the next instruction's address. -/
def branchInstr (cond : Cpu → Bool) (b1 : Byte) (s : State) : Result :=
  .next (if cond s.cpu then s.setPc (s.cpu.pc + sext b1) else s)

end Sys2Proof.Machine
end

