-- ==== Sys2Proof/Machine/Arith.lean ====
section
/-! DEFINITION. Arithmetic, logic, compare, increment and decrement (R130 to R145): one meaning for each opcode. -/

namespace Sys2Proof.Machine

/-- `ADC #$nn` (R130). -/
def execAdcImm (b1 : Byte) (s : State) : Result := immInstr b1 Cpu.adc s

/-- `ADC $nn` (R130). -/
def execAdcZp (b1 : Byte) (s : State) : Result := readInstr (.zp b1) Cpu.adc s

/-- `ADC $nn,X` (R130). -/
def execAdcZpX (b1 : Byte) (s : State) : Result := readInstr (.zpX b1) Cpu.adc s

/-- `ADC $nnnn` (R130). -/
def execAdcAbs (w : Word) (s : State) : Result := readInstr (.abs w) Cpu.adc s

/-- `ADC $nnnn,X` (R130). -/
def execAdcAbsX (w : Word) (s : State) : Result := readInstr (.absX w) Cpu.adc s

/-- `ADC $nnnn,Y` (R130). -/
def execAdcAbsY (w : Word) (s : State) : Result := readInstr (.absY w) Cpu.adc s

/-- `ADC ($nn,X)` (R130). -/
def execAdcIndX (b1 : Byte) (s : State) : Result := readInstr (.indX b1) Cpu.adc s

/-- `ADC ($nn),Y` (R130). -/
def execAdcIndY (b1 : Byte) (s : State) : Result := readInstr (.indY b1) Cpu.adc s

/-- `SBC #$nn` (R131). -/
def execSbcImm (b1 : Byte) (s : State) : Result := immInstr b1 Cpu.sbc s

/-- `SBC $nn` (R131). -/
def execSbcZp (b1 : Byte) (s : State) : Result := readInstr (.zp b1) Cpu.sbc s

/-- `SBC $nn,X` (R131). -/
def execSbcZpX (b1 : Byte) (s : State) : Result := readInstr (.zpX b1) Cpu.sbc s

/-- `SBC $nnnn` (R131). -/
def execSbcAbs (w : Word) (s : State) : Result := readInstr (.abs w) Cpu.sbc s

/-- `SBC $nnnn,X` (R131). -/
def execSbcAbsX (w : Word) (s : State) : Result := readInstr (.absX w) Cpu.sbc s

/-- `SBC $nnnn,Y` (R131). -/
def execSbcAbsY (w : Word) (s : State) : Result := readInstr (.absY w) Cpu.sbc s

/-- `SBC ($nn,X)` (R131). -/
def execSbcIndX (b1 : Byte) (s : State) : Result := readInstr (.indX b1) Cpu.sbc s

/-- `SBC ($nn),Y` (R131). -/
def execSbcIndY (b1 : Byte) (s : State) : Result := readInstr (.indY b1) Cpu.sbc s

/-- `AND #$nn` (R132). -/
def execAndImm (b1 : Byte) (s : State) : Result := immInstr b1 Cpu.andA s

/-- `AND $nn` (R132). -/
def execAndZp (b1 : Byte) (s : State) : Result := readInstr (.zp b1) Cpu.andA s

/-- `AND $nn,X` (R132). -/
def execAndZpX (b1 : Byte) (s : State) : Result := readInstr (.zpX b1) Cpu.andA s

/-- `AND $nnnn` (R132). -/
def execAndAbs (w : Word) (s : State) : Result := readInstr (.abs w) Cpu.andA s

/-- `AND $nnnn,X` (R132). -/
def execAndAbsX (w : Word) (s : State) : Result := readInstr (.absX w) Cpu.andA s

/-- `AND $nnnn,Y` (R132). -/
def execAndAbsY (w : Word) (s : State) : Result := readInstr (.absY w) Cpu.andA s

/-- `AND ($nn,X)` (R132). -/
def execAndIndX (b1 : Byte) (s : State) : Result := readInstr (.indX b1) Cpu.andA s

/-- `AND ($nn),Y` (R132). -/
def execAndIndY (b1 : Byte) (s : State) : Result := readInstr (.indY b1) Cpu.andA s

/-- `ORA #$nn` (R133). -/
def execOraImm (b1 : Byte) (s : State) : Result := immInstr b1 Cpu.orA s

/-- `ORA $nn` (R133). -/
def execOraZp (b1 : Byte) (s : State) : Result := readInstr (.zp b1) Cpu.orA s

/-- `ORA $nn,X` (R133). -/
def execOraZpX (b1 : Byte) (s : State) : Result := readInstr (.zpX b1) Cpu.orA s

/-- `ORA $nnnn` (R133). -/
def execOraAbs (w : Word) (s : State) : Result := readInstr (.abs w) Cpu.orA s

/-- `ORA $nnnn,X` (R133). -/
def execOraAbsX (w : Word) (s : State) : Result := readInstr (.absX w) Cpu.orA s

/-- `ORA $nnnn,Y` (R133). -/
def execOraAbsY (w : Word) (s : State) : Result := readInstr (.absY w) Cpu.orA s

/-- `ORA ($nn,X)` (R133). -/
def execOraIndX (b1 : Byte) (s : State) : Result := readInstr (.indX b1) Cpu.orA s

/-- `ORA ($nn),Y` (R133). -/
def execOraIndY (b1 : Byte) (s : State) : Result := readInstr (.indY b1) Cpu.orA s

/-- `EOR #$nn` (R134). -/
def execEorImm (b1 : Byte) (s : State) : Result := immInstr b1 Cpu.eorA s

/-- `EOR $nn` (R134). -/
def execEorZp (b1 : Byte) (s : State) : Result := readInstr (.zp b1) Cpu.eorA s

/-- `EOR $nn,X` (R134). -/
def execEorZpX (b1 : Byte) (s : State) : Result := readInstr (.zpX b1) Cpu.eorA s

/-- `EOR $nnnn` (R134). -/
def execEorAbs (w : Word) (s : State) : Result := readInstr (.abs w) Cpu.eorA s

/-- `EOR $nnnn,X` (R134). -/
def execEorAbsX (w : Word) (s : State) : Result := readInstr (.absX w) Cpu.eorA s

/-- `EOR $nnnn,Y` (R134). -/
def execEorAbsY (w : Word) (s : State) : Result := readInstr (.absY w) Cpu.eorA s

/-- `EOR ($nn,X)` (R134). -/
def execEorIndX (b1 : Byte) (s : State) : Result := readInstr (.indX b1) Cpu.eorA s

/-- `EOR ($nn),Y` (R134). -/
def execEorIndY (b1 : Byte) (s : State) : Result := readInstr (.indY b1) Cpu.eorA s

/-- `CMP #$nn` (R136). -/
def execCmpImm (b1 : Byte) (s : State) : Result := immInstr b1 Cpu.cmp s

/-- `CMP $nn` (R136). -/
def execCmpZp (b1 : Byte) (s : State) : Result := readInstr (.zp b1) Cpu.cmp s

/-- `CMP $nn,X` (R136). -/
def execCmpZpX (b1 : Byte) (s : State) : Result := readInstr (.zpX b1) Cpu.cmp s

/-- `CMP $nnnn` (R136). -/
def execCmpAbs (w : Word) (s : State) : Result := readInstr (.abs w) Cpu.cmp s

/-- `CMP $nnnn,X` (R136). -/
def execCmpAbsX (w : Word) (s : State) : Result := readInstr (.absX w) Cpu.cmp s

/-- `CMP $nnnn,Y` (R136). -/
def execCmpAbsY (w : Word) (s : State) : Result := readInstr (.absY w) Cpu.cmp s

/-- `CMP ($nn,X)` (R136). -/
def execCmpIndX (b1 : Byte) (s : State) : Result := readInstr (.indX b1) Cpu.cmp s

/-- `CMP ($nn),Y` (R136). -/
def execCmpIndY (b1 : Byte) (s : State) : Result := readInstr (.indY b1) Cpu.cmp s

/-- `CPX #$nn` (R137). -/
def execCpxImm (b1 : Byte) (s : State) : Result := immInstr b1 Cpu.cpx s

/-- `CPX $nn` (R137). -/
def execCpxZp (b1 : Byte) (s : State) : Result := readInstr (.zp b1) Cpu.cpx s

/-- `CPX $nnnn` (R137). -/
def execCpxAbs (w : Word) (s : State) : Result := readInstr (.abs w) Cpu.cpx s

/-- `CPY #$nn` (R138). -/
def execCpyImm (b1 : Byte) (s : State) : Result := immInstr b1 Cpu.cpy s

/-- `CPY $nn` (R138). -/
def execCpyZp (b1 : Byte) (s : State) : Result := readInstr (.zp b1) Cpu.cpy s

/-- `CPY $nnnn` (R138). -/
def execCpyAbs (w : Word) (s : State) : Result := readInstr (.abs w) Cpu.cpy s

/-- `BIT $nn` (R139). -/
def execBitZp (b1 : Byte) (s : State) : Result := readInstr (.zp b1) Cpu.bit s

/-- `BIT $nnnn` (R139). -/
def execBitAbs (w : Word) (s : State) : Result := readInstr (.abs w) Cpu.bit s

/-- `INC $nn` (R140). -/
def execIncZp (b1 : Byte) (s : State) : Result := modifyInstr (.zp b1) modInc s

/-- `INC $nn,X` (R140). -/
def execIncZpX (b1 : Byte) (s : State) : Result := modifyInstr (.zpX b1) modInc s

/-- `INC $nnnn` (R140). -/
def execIncAbs (w : Word) (s : State) : Result := modifyInstr (.abs w) modInc s

/-- `INC $nnnn,X` (R140). -/
def execIncAbsX (w : Word) (s : State) : Result := modifyInstr (.absX w) modInc s

/-- `DEC $nn` (R141). -/
def execDecZp (b1 : Byte) (s : State) : Result := modifyInstr (.zp b1) modDec s

/-- `DEC $nn,X` (R141). -/
def execDecZpX (b1 : Byte) (s : State) : Result := modifyInstr (.zpX b1) modDec s

/-- `DEC $nnnn` (R141). -/
def execDecAbs (w : Word) (s : State) : Result := modifyInstr (.abs w) modDec s

/-- `DEC $nnnn,X` (R141). -/
def execDecAbsX (w : Word) (s : State) : Result := modifyInstr (.absX w) modDec s

/-- `INX` (R142). -/
def execInx (s : State) : Result := cpuInstr (fun c => c.loadX (c.x + 1)) s

/-- `INY` (R143). -/
def execIny (s : State) : Result := cpuInstr (fun c => c.loadY (c.y + 1)) s

/-- `DEX` (R144). -/
def execDex (s : State) : Result := cpuInstr (fun c => c.loadX (c.x - 1)) s

/-- `DEY` (R145). -/
def execDey (s : State) : Result := cpuInstr (fun c => c.loadY (c.y - 1)) s

end Sys2Proof.Machine
end

