-- ==== Sys2Proof/Machine/Control.lean ====
section
/-! DEFINITION. Branches, jumps, calls, returns and BRK (R160 to R173): one meaning for each opcode. -/

namespace Sys2Proof.Machine

/-- `BCC label` (R161). -/
def execBccRel (b1 : Byte) (s : State) : Result := branchInstr (fun c => !c.c) b1 s

/-- `BCS label` (R162). -/
def execBcsRel (b1 : Byte) (s : State) : Result := branchInstr (fun c => c.c) b1 s

/-- `BEQ label` (R163). -/
def execBeqRel (b1 : Byte) (s : State) : Result := branchInstr (fun c => c.z) b1 s

/-- `BNE label` (R164). -/
def execBneRel (b1 : Byte) (s : State) : Result := branchInstr (fun c => !c.z) b1 s

/-- `BMI label` (R165). -/
def execBmiRel (b1 : Byte) (s : State) : Result := branchInstr (fun c => c.n) b1 s

/-- `BPL label` (R166). -/
def execBplRel (b1 : Byte) (s : State) : Result := branchInstr (fun c => !c.n) b1 s

/-- `BVC label` (R167). -/
def execBvcRel (b1 : Byte) (s : State) : Result := branchInstr (fun c => !c.v) b1 s

/-- `BVS label` (R168). -/
def execBvsRel (b1 : Byte) (s : State) : Result := branchInstr (fun c => c.v) b1 s

/-- `JMP $nnnn` (R169): PC takes the operand word. -/
def execJmpAbs (w : Word) (s : State) : Result := .next (s.setPc w)

/-- `JMP ($nnnn)` (R169): two pointer reads, the second on the same page (R99). -/
def execJmpInd (w : Word) (s : State) : Result :=
  ((memRead w s).bind fun lo t =>
    (memRead (pointerHighAddress w) t).bind fun hi u => .ok () (u.setPc (wordOf hi lo))).toOutcome

/-- `JSR $nnnn` (R170): push the address of the last byte of the JSR, PC takes the operand word. -/
def execJsrAbs (w : Word) (s : State) : Result := .next ((pushWord (s.cpu.pc - 1) s).setPc w)

/-- `RTS` (R171): pull the return address and add 1. -/
def execRts (s : State) : Result :=
  let r := pullWord s
  .next (r.2.setPc (r.1 + 1))

/-- `BRK` (R172): skip the padding byte, set the break state, offer IRQBRK to the latch; the entry is the interrupt check at
the end of the same step (R387; log entry 10). -/
def execBrk (s : State) : Result :=
  .next (raiseInterrupt .irqBrk (s.withCpu { s.cpu with pc := s.cpu.pc + 1, brk := true }))

/-- `RTI` (R173): pull the status byte and PC, nothing added. -/
def execRti (s : State) : Result := .next (returnFromInterrupt s)

end Sys2Proof.Machine
end

