-- ==== Sys2Proof/Machine/Shift.lean ====
section
/-! DEFINITION. Shifts and rotates (R150 to R154): one meaning for each opcode. -/

namespace Sys2Proof.Machine

/-- `ASL A` (R151). -/
def execAslAcc (s : State) : Result := accInstr modAsl s

/-- `ASL $nn` (R151). -/
def execAslZp (b1 : Byte) (s : State) : Result := modifyInstr (.zp b1) modAsl s

/-- `ASL $nn,X` (R151). -/
def execAslZpX (b1 : Byte) (s : State) : Result := modifyInstr (.zpX b1) modAsl s

/-- `ASL $nnnn` (R151). -/
def execAslAbs (w : Word) (s : State) : Result := modifyInstr (.abs w) modAsl s

/-- `ASL $nnnn,X` (R151). -/
def execAslAbsX (w : Word) (s : State) : Result := modifyInstr (.absX w) modAsl s

/-- `LSR A` (R152). -/
def execLsrAcc (s : State) : Result := accInstr modLsr s

/-- `LSR $nn` (R152). -/
def execLsrZp (b1 : Byte) (s : State) : Result := modifyInstr (.zp b1) modLsr s

/-- `LSR $nn,X` (R152). -/
def execLsrZpX (b1 : Byte) (s : State) : Result := modifyInstr (.zpX b1) modLsr s

/-- `LSR $nnnn` (R152). -/
def execLsrAbs (w : Word) (s : State) : Result := modifyInstr (.abs w) modLsr s

/-- `LSR $nnnn,X` (R152). -/
def execLsrAbsX (w : Word) (s : State) : Result := modifyInstr (.absX w) modLsr s

/-- `ROL A` (R153). -/
def execRolAcc (s : State) : Result := accInstr modRol s

/-- `ROL $nn` (R153). -/
def execRolZp (b1 : Byte) (s : State) : Result := modifyInstr (.zp b1) modRol s

/-- `ROL $nn,X` (R153). -/
def execRolZpX (b1 : Byte) (s : State) : Result := modifyInstr (.zpX b1) modRol s

/-- `ROL $nnnn` (R153). -/
def execRolAbs (w : Word) (s : State) : Result := modifyInstr (.abs w) modRol s

/-- `ROL $nnnn,X` (R153). -/
def execRolAbsX (w : Word) (s : State) : Result := modifyInstr (.absX w) modRol s

/-- `ROR A` (R154). -/
def execRorAcc (s : State) : Result := accInstr modRor s

/-- `ROR $nn` (R154). -/
def execRorZp (b1 : Byte) (s : State) : Result := modifyInstr (.zp b1) modRor s

/-- `ROR $nn,X` (R154). -/
def execRorZpX (b1 : Byte) (s : State) : Result := modifyInstr (.zpX b1) modRor s

/-- `ROR $nnnn` (R154). -/
def execRorAbs (w : Word) (s : State) : Result := modifyInstr (.abs w) modRor s

/-- `ROR $nnnn,X` (R154). -/
def execRorAbsX (w : Word) (s : State) : Result := modifyInstr (.absX w) modRor s

end Sys2Proof.Machine
end

