-- ==== Sys2Proof/Machine/StackFlags.lean ====
section
/-! DEFINITION. Stack, flag and no-operation instructions (R180 to R191): one meaning for each opcode. -/

namespace Sys2Proof.Machine

/-- `PHA` (R180): push A. -/
def execPha (s : State) : Result := .next (push s.cpu.a s)

/-- `PHP` (R181): push the status byte with bit 4 set. -/
def execPhp (s : State) : Result := .next (push (s.cpu.status true) s)

/-- `PLA` (R182): pull A and set N and Z. -/
def execPla (s : State) : Result :=
  let r := pull s
  .next (r.2.withCpu (r.2.cpu.loadA r.1))

/-- `PLP` (R183): pull the flags, bits 5 and 4 ignored. -/
def execPlp (s : State) : Result :=
  let r := pull s
  .next (r.2.withCpu (r.2.cpu.setStatus r.1))

/-- `CLC` (R184). -/
def execClc (s : State) : Result := cpuInstr (fun c => { c with c := false }) s

/-- `SEC` (R185). -/
def execSec (s : State) : Result := cpuInstr (fun c => { c with c := true }) s

/-- `CLI` (R186). -/
def execCli (s : State) : Result := cpuInstr (fun c => { c with i := false }) s

/-- `SEI` (R187). -/
def execSei (s : State) : Result := cpuInstr (fun c => { c with i := true }) s

/-- `CLD` (R188). -/
def execCld (s : State) : Result := cpuInstr (fun c => { c with d := false }) s

/-- `SED` (R189). -/
def execSed (s : State) : Result := cpuInstr (fun c => { c with d := true }) s

/-- `CLV` (R190). -/
def execClv (s : State) : Result := cpuInstr (fun c => { c with v := false }) s

/-- `NOP` (R191). -/
def execNop (s : State) : Result := cpuInstr (fun c => c) s

end Sys2Proof.Machine
end

