-- ==== Sys2Proof/Machine/Transfer.lean ====
section
/-! DEFINITION. Loads, stores and register transfers (R111 to R122): one meaning for each opcode. -/

namespace Sys2Proof.Machine

/-- `LDA #$nn` (R111). -/
def execLdaImm (b1 : Byte) (s : State) : Result := immInstr b1 Cpu.loadA s

/-- `LDA $nn` (R111). -/
def execLdaZp (b1 : Byte) (s : State) : Result := readInstr (.zp b1) Cpu.loadA s

/-- `LDA $nn,X` (R111). -/
def execLdaZpX (b1 : Byte) (s : State) : Result := readInstr (.zpX b1) Cpu.loadA s

/-- `LDA $nnnn` (R111). -/
def execLdaAbs (w : Word) (s : State) : Result := readInstr (.abs w) Cpu.loadA s

/-- `LDA $nnnn,X` (R111). -/
def execLdaAbsX (w : Word) (s : State) : Result := readInstr (.absX w) Cpu.loadA s

/-- `LDA $nnnn,Y` (R111). -/
def execLdaAbsY (w : Word) (s : State) : Result := readInstr (.absY w) Cpu.loadA s

/-- `LDA ($nn,X)` (R111). -/
def execLdaIndX (b1 : Byte) (s : State) : Result := readInstr (.indX b1) Cpu.loadA s

/-- `LDA ($nn),Y` (R111). -/
def execLdaIndY (b1 : Byte) (s : State) : Result := readInstr (.indY b1) Cpu.loadA s

/-- `LDX #$nn` (R112). -/
def execLdxImm (b1 : Byte) (s : State) : Result := immInstr b1 Cpu.loadX s

/-- `LDX $nn` (R112). -/
def execLdxZp (b1 : Byte) (s : State) : Result := readInstr (.zp b1) Cpu.loadX s

/-- `LDX $nn,Y` (R112). -/
def execLdxZpY (b1 : Byte) (s : State) : Result := readInstr (.zpY b1) Cpu.loadX s

/-- `LDX $nnnn` (R112). -/
def execLdxAbs (w : Word) (s : State) : Result := readInstr (.abs w) Cpu.loadX s

/-- `LDX $nnnn,Y` (R112). -/
def execLdxAbsY (w : Word) (s : State) : Result := readInstr (.absY w) Cpu.loadX s

/-- `LDY #$nn` (R113). -/
def execLdyImm (b1 : Byte) (s : State) : Result := immInstr b1 Cpu.loadY s

/-- `LDY $nn` (R113). -/
def execLdyZp (b1 : Byte) (s : State) : Result := readInstr (.zp b1) Cpu.loadY s

/-- `LDY $nn,X` (R113). -/
def execLdyZpX (b1 : Byte) (s : State) : Result := readInstr (.zpX b1) Cpu.loadY s

/-- `LDY $nnnn` (R113). -/
def execLdyAbs (w : Word) (s : State) : Result := readInstr (.abs w) Cpu.loadY s

/-- `LDY $nnnn,X` (R113). -/
def execLdyAbsX (w : Word) (s : State) : Result := readInstr (.absX w) Cpu.loadY s

/-- `STA $nn` (R114). -/
def execStaZp (b1 : Byte) (s : State) : Result := storeInstr (.zp b1) Cpu.a s

/-- `STA $nn,X` (R114). -/
def execStaZpX (b1 : Byte) (s : State) : Result := storeInstr (.zpX b1) Cpu.a s

/-- `STA $nnnn` (R114). -/
def execStaAbs (w : Word) (s : State) : Result := storeInstr (.abs w) Cpu.a s

/-- `STA $nnnn,X` (R114). -/
def execStaAbsX (w : Word) (s : State) : Result := storeInstr (.absX w) Cpu.a s

/-- `STA $nnnn,Y` (R114). -/
def execStaAbsY (w : Word) (s : State) : Result := storeInstr (.absY w) Cpu.a s

/-- `STA ($nn,X)` (R114). -/
def execStaIndX (b1 : Byte) (s : State) : Result := storeInstr (.indX b1) Cpu.a s

/-- `STA ($nn),Y` (R114). -/
def execStaIndY (b1 : Byte) (s : State) : Result := storeInstr (.indY b1) Cpu.a s

/-- `STX $nn` (R115). -/
def execStxZp (b1 : Byte) (s : State) : Result := storeInstr (.zp b1) Cpu.x s

/-- `STX $nn,Y` (R115). -/
def execStxZpY (b1 : Byte) (s : State) : Result := storeInstr (.zpY b1) Cpu.x s

/-- `STX $nnnn` (R115). -/
def execStxAbs (w : Word) (s : State) : Result := storeInstr (.abs w) Cpu.x s

/-- `STY $nn` (R116). -/
def execStyZp (b1 : Byte) (s : State) : Result := storeInstr (.zp b1) Cpu.y s

/-- `STY $nn,X` (R116). -/
def execStyZpX (b1 : Byte) (s : State) : Result := storeInstr (.zpX b1) Cpu.y s

/-- `STY $nnnn` (R116). -/
def execStyAbs (w : Word) (s : State) : Result := storeInstr (.abs w) Cpu.y s

/-- `TAX` (R117). -/
def execTax (s : State) : Result := cpuInstr (fun c => c.loadX c.a) s

/-- `TAY` (R118). -/
def execTay (s : State) : Result := cpuInstr (fun c => c.loadY c.a) s

/-- `TXA` (R119). -/
def execTxa (s : State) : Result := cpuInstr (fun c => c.loadA c.x) s

/-- `TYA` (R120). -/
def execTya (s : State) : Result := cpuInstr (fun c => c.loadA c.y) s

/-- `TSX` (R121). -/
def execTsx (s : State) : Result := cpuInstr (fun c => c.loadX c.s) s

/-- `TXS` (R122). -/
def execTxs (s : State) : Result := cpuInstr (fun c => { c with s := c.x }) s

end Sys2Proof.Machine
end

