-- ==== Sys2Proof/Machine/Dispatch.lean ====
section
/-! DEFINITION. The dispatch: each instruction to its meaning. The state it takes is the one after the fetch, with PC at the
next instruction (R91). -/

namespace Sys2Proof.Machine

open Sys2Proof

def exec (i : Instr) (s : State) : Host.Outcome State Fault Refusal :=
  match i with
  | .ldaImm b1 => Sys2Proof.Machine.execLdaImm b1 s
  | .ldaZp b1 => Sys2Proof.Machine.execLdaZp b1 s
  | .ldaZpX b1 => Sys2Proof.Machine.execLdaZpX b1 s
  | .ldaAbs w => Sys2Proof.Machine.execLdaAbs w s
  | .ldaAbsX w => Sys2Proof.Machine.execLdaAbsX w s
  | .ldaAbsY w => Sys2Proof.Machine.execLdaAbsY w s
  | .ldaIndX b1 => Sys2Proof.Machine.execLdaIndX b1 s
  | .ldaIndY b1 => Sys2Proof.Machine.execLdaIndY b1 s
  | .ldxImm b1 => Sys2Proof.Machine.execLdxImm b1 s
  | .ldxZp b1 => Sys2Proof.Machine.execLdxZp b1 s
  | .ldxZpY b1 => Sys2Proof.Machine.execLdxZpY b1 s
  | .ldxAbs w => Sys2Proof.Machine.execLdxAbs w s
  | .ldxAbsY w => Sys2Proof.Machine.execLdxAbsY w s
  | .ldyImm b1 => Sys2Proof.Machine.execLdyImm b1 s
  | .ldyZp b1 => Sys2Proof.Machine.execLdyZp b1 s
  | .ldyZpX b1 => Sys2Proof.Machine.execLdyZpX b1 s
  | .ldyAbs w => Sys2Proof.Machine.execLdyAbs w s
  | .ldyAbsX w => Sys2Proof.Machine.execLdyAbsX w s
  | .staZp b1 => Sys2Proof.Machine.execStaZp b1 s
  | .staZpX b1 => Sys2Proof.Machine.execStaZpX b1 s
  | .staAbs w => Sys2Proof.Machine.execStaAbs w s
  | .staAbsX w => Sys2Proof.Machine.execStaAbsX w s
  | .staAbsY w => Sys2Proof.Machine.execStaAbsY w s
  | .staIndX b1 => Sys2Proof.Machine.execStaIndX b1 s
  | .staIndY b1 => Sys2Proof.Machine.execStaIndY b1 s
  | .stxZp b1 => Sys2Proof.Machine.execStxZp b1 s
  | .stxZpY b1 => Sys2Proof.Machine.execStxZpY b1 s
  | .stxAbs w => Sys2Proof.Machine.execStxAbs w s
  | .styZp b1 => Sys2Proof.Machine.execStyZp b1 s
  | .styZpX b1 => Sys2Proof.Machine.execStyZpX b1 s
  | .styAbs w => Sys2Proof.Machine.execStyAbs w s
  | .tax => Sys2Proof.Machine.execTax s
  | .tay => Sys2Proof.Machine.execTay s
  | .txa => Sys2Proof.Machine.execTxa s
  | .tya => Sys2Proof.Machine.execTya s
  | .tsx => Sys2Proof.Machine.execTsx s
  | .txs => Sys2Proof.Machine.execTxs s
  | .adcImm b1 => Sys2Proof.Machine.execAdcImm b1 s
  | .adcZp b1 => Sys2Proof.Machine.execAdcZp b1 s
  | .adcZpX b1 => Sys2Proof.Machine.execAdcZpX b1 s
  | .adcAbs w => Sys2Proof.Machine.execAdcAbs w s
  | .adcAbsX w => Sys2Proof.Machine.execAdcAbsX w s
  | .adcAbsY w => Sys2Proof.Machine.execAdcAbsY w s
  | .adcIndX b1 => Sys2Proof.Machine.execAdcIndX b1 s
  | .adcIndY b1 => Sys2Proof.Machine.execAdcIndY b1 s
  | .sbcImm b1 => Sys2Proof.Machine.execSbcImm b1 s
  | .sbcZp b1 => Sys2Proof.Machine.execSbcZp b1 s
  | .sbcZpX b1 => Sys2Proof.Machine.execSbcZpX b1 s
  | .sbcAbs w => Sys2Proof.Machine.execSbcAbs w s
  | .sbcAbsX w => Sys2Proof.Machine.execSbcAbsX w s
  | .sbcAbsY w => Sys2Proof.Machine.execSbcAbsY w s
  | .sbcIndX b1 => Sys2Proof.Machine.execSbcIndX b1 s
  | .sbcIndY b1 => Sys2Proof.Machine.execSbcIndY b1 s
  | .andImm b1 => Sys2Proof.Machine.execAndImm b1 s
  | .andZp b1 => Sys2Proof.Machine.execAndZp b1 s
  | .andZpX b1 => Sys2Proof.Machine.execAndZpX b1 s
  | .andAbs w => Sys2Proof.Machine.execAndAbs w s
  | .andAbsX w => Sys2Proof.Machine.execAndAbsX w s
  | .andAbsY w => Sys2Proof.Machine.execAndAbsY w s
  | .andIndX b1 => Sys2Proof.Machine.execAndIndX b1 s
  | .andIndY b1 => Sys2Proof.Machine.execAndIndY b1 s
  | .oraImm b1 => Sys2Proof.Machine.execOraImm b1 s
  | .oraZp b1 => Sys2Proof.Machine.execOraZp b1 s
  | .oraZpX b1 => Sys2Proof.Machine.execOraZpX b1 s
  | .oraAbs w => Sys2Proof.Machine.execOraAbs w s
  | .oraAbsX w => Sys2Proof.Machine.execOraAbsX w s
  | .oraAbsY w => Sys2Proof.Machine.execOraAbsY w s
  | .oraIndX b1 => Sys2Proof.Machine.execOraIndX b1 s
  | .oraIndY b1 => Sys2Proof.Machine.execOraIndY b1 s
  | .eorImm b1 => Sys2Proof.Machine.execEorImm b1 s
  | .eorZp b1 => Sys2Proof.Machine.execEorZp b1 s
  | .eorZpX b1 => Sys2Proof.Machine.execEorZpX b1 s
  | .eorAbs w => Sys2Proof.Machine.execEorAbs w s
  | .eorAbsX w => Sys2Proof.Machine.execEorAbsX w s
  | .eorAbsY w => Sys2Proof.Machine.execEorAbsY w s
  | .eorIndX b1 => Sys2Proof.Machine.execEorIndX b1 s
  | .eorIndY b1 => Sys2Proof.Machine.execEorIndY b1 s
  | .cmpImm b1 => Sys2Proof.Machine.execCmpImm b1 s
  | .cmpZp b1 => Sys2Proof.Machine.execCmpZp b1 s
  | .cmpZpX b1 => Sys2Proof.Machine.execCmpZpX b1 s
  | .cmpAbs w => Sys2Proof.Machine.execCmpAbs w s
  | .cmpAbsX w => Sys2Proof.Machine.execCmpAbsX w s
  | .cmpAbsY w => Sys2Proof.Machine.execCmpAbsY w s
  | .cmpIndX b1 => Sys2Proof.Machine.execCmpIndX b1 s
  | .cmpIndY b1 => Sys2Proof.Machine.execCmpIndY b1 s
  | .cpxImm b1 => Sys2Proof.Machine.execCpxImm b1 s
  | .cpxZp b1 => Sys2Proof.Machine.execCpxZp b1 s
  | .cpxAbs w => Sys2Proof.Machine.execCpxAbs w s
  | .cpyImm b1 => Sys2Proof.Machine.execCpyImm b1 s
  | .cpyZp b1 => Sys2Proof.Machine.execCpyZp b1 s
  | .cpyAbs w => Sys2Proof.Machine.execCpyAbs w s
  | .bitZp b1 => Sys2Proof.Machine.execBitZp b1 s
  | .bitAbs w => Sys2Proof.Machine.execBitAbs w s
  | .incZp b1 => Sys2Proof.Machine.execIncZp b1 s
  | .incZpX b1 => Sys2Proof.Machine.execIncZpX b1 s
  | .incAbs w => Sys2Proof.Machine.execIncAbs w s
  | .incAbsX w => Sys2Proof.Machine.execIncAbsX w s
  | .decZp b1 => Sys2Proof.Machine.execDecZp b1 s
  | .decZpX b1 => Sys2Proof.Machine.execDecZpX b1 s
  | .decAbs w => Sys2Proof.Machine.execDecAbs w s
  | .decAbsX w => Sys2Proof.Machine.execDecAbsX w s
  | .inx => Sys2Proof.Machine.execInx s
  | .iny => Sys2Proof.Machine.execIny s
  | .dex => Sys2Proof.Machine.execDex s
  | .dey => Sys2Proof.Machine.execDey s
  | .aslAcc => Sys2Proof.Machine.execAslAcc s
  | .aslZp b1 => Sys2Proof.Machine.execAslZp b1 s
  | .aslZpX b1 => Sys2Proof.Machine.execAslZpX b1 s
  | .aslAbs w => Sys2Proof.Machine.execAslAbs w s
  | .aslAbsX w => Sys2Proof.Machine.execAslAbsX w s
  | .lsrAcc => Sys2Proof.Machine.execLsrAcc s
  | .lsrZp b1 => Sys2Proof.Machine.execLsrZp b1 s
  | .lsrZpX b1 => Sys2Proof.Machine.execLsrZpX b1 s
  | .lsrAbs w => Sys2Proof.Machine.execLsrAbs w s
  | .lsrAbsX w => Sys2Proof.Machine.execLsrAbsX w s
  | .rolAcc => Sys2Proof.Machine.execRolAcc s
  | .rolZp b1 => Sys2Proof.Machine.execRolZp b1 s
  | .rolZpX b1 => Sys2Proof.Machine.execRolZpX b1 s
  | .rolAbs w => Sys2Proof.Machine.execRolAbs w s
  | .rolAbsX w => Sys2Proof.Machine.execRolAbsX w s
  | .rorAcc => Sys2Proof.Machine.execRorAcc s
  | .rorZp b1 => Sys2Proof.Machine.execRorZp b1 s
  | .rorZpX b1 => Sys2Proof.Machine.execRorZpX b1 s
  | .rorAbs w => Sys2Proof.Machine.execRorAbs w s
  | .rorAbsX w => Sys2Proof.Machine.execRorAbsX w s
  | .bccRel b1 => Sys2Proof.Machine.execBccRel b1 s
  | .bcsRel b1 => Sys2Proof.Machine.execBcsRel b1 s
  | .beqRel b1 => Sys2Proof.Machine.execBeqRel b1 s
  | .bneRel b1 => Sys2Proof.Machine.execBneRel b1 s
  | .bmiRel b1 => Sys2Proof.Machine.execBmiRel b1 s
  | .bplRel b1 => Sys2Proof.Machine.execBplRel b1 s
  | .bvcRel b1 => Sys2Proof.Machine.execBvcRel b1 s
  | .bvsRel b1 => Sys2Proof.Machine.execBvsRel b1 s
  | .jmpAbs w => Sys2Proof.Machine.execJmpAbs w s
  | .jmpInd w => Sys2Proof.Machine.execJmpInd w s
  | .jsrAbs w => Sys2Proof.Machine.execJsrAbs w s
  | .rts => Sys2Proof.Machine.execRts s
  | .brk => Sys2Proof.Machine.execBrk s
  | .rti => Sys2Proof.Machine.execRti s
  | .pha => Sys2Proof.Machine.execPha s
  | .php => Sys2Proof.Machine.execPhp s
  | .pla => Sys2Proof.Machine.execPla s
  | .plp => Sys2Proof.Machine.execPlp s
  | .clc => Sys2Proof.Machine.execClc s
  | .sec => Sys2Proof.Machine.execSec s
  | .cli => Sys2Proof.Machine.execCli s
  | .sei => Sys2Proof.Machine.execSei s
  | .cld => Sys2Proof.Machine.execCld s
  | .sed => Sys2Proof.Machine.execSed s
  | .clv => Sys2Proof.Machine.execClv s
  | .nop => Sys2Proof.Machine.execNop s

end Sys2Proof.Machine
end

