-- ==== Sys2Proof/Machine/Fetch.lean ====
section
/-! DEFINITION. Fetching an instruction through the bus (R91), and placing one where the next fetch reads (log entry 1). -/

namespace Sys2Proof.Machine

/-- `b <- MemRead(PC, 1); PC <- PC + 1` (R91). -/
def fetchByte (s : State) : Res Byte := (memRead s.cpu.pc s).bind fun b t => .ok b (t.setPc (t.cpu.pc + 1))

/-- Fetch the operand bytes a format asks for (R90, R91). -/
def fetchOperands (shape : Shape) (s : State) : Res Instr :=
  match shape with
  | .f1 i => .ok i s
  | .f2 mk => (fetchByte s).bind fun b1 t => .ok (mk b1) t
  | .f3 mk => (fetchByte s).bind fun lo t => (fetchByte t).bind fun hi u => .ok (mk (wordOf hi lo)) u

/-- Fetch an instruction (R91): an unknown opcode is fatal, with PC already advanced. -/
def fetch (s : State) : Res Instr :=
  (fetchByte s).bind fun op t =>
    match opcodeRow op with
    | none => raise (.unknownOpcode s.cpu.pc op) t
    | some row => fetchOperands row.shape t

/-! ## Placing an instruction at PC -/

/-- Can a byte be placed at the address: is it memory that exists? -/
def placeable (s : State) (a : Word) : Bool :=
  match regionOf a with
  | .workRam => true
  | .sram => true
  | .prg => decide (prgPageOf s a < s.cart.prgPages)
  | .ppuRegs => false
  | .io => false
  | .unmapped => false

/-- Place a byte in the memory at an address, ROM included. -/
def placeByte (a : Word) (v : Byte) (s : State) : State :=
  match regionOf a with
  | .workRam => { s with ram := s.ram.write (ramPlace a) v }
  | .sram => { s with sram := s.sram.write (sramPlace a) v }
  | .prg =>
    { s with cart := { s.cart with prg := s.cart.prg.modify (prgPageOf s a) (fun m => m.write (a.toNat % 0x2000) v) } }
  | .ppuRegs => s
  | .io => s
  | .unmapped => s

/-- A cartridge with nothing in it: mapper 0, four PRG pages and eight CHR-RAM pages of unlisted bytes. -/
def blankCartridge : Cartridge :=
  { prg := List.replicate 4 [], chr := List.replicate 8 [], chrIsRam := true, hdrMirroring := false, sramFlag := false }

/-- The state with a cartridge in it: itself, or, where none is loaded, with the blank one. -/
def State.withCartridge (s : State) : State :=
  if s.loaded then s
  else
    { s with loaded := true, cart := blankCartridge, mapper := .mapper0,
             win := Mapper.mapper0.windows blankCartridge.prgPages }

/-- Place the instruction whose bits are the low `nbits` bits of `w` where the next step fetches (log entry 1): a console
without a cartridge gets the blank one, a fault is taken away, and PC moves to work RAM only where it points at no memory. -/
def placeInstruction (nbits w : Nat) (s : State) : State :=
  let bits := w % 2 ^ nbits
  let t := { s.withCartridge with fault := none }
  let pc := t.cpu.pc
  let u := if placeable t pc && placeable t (pc + 1) && placeable t (pc + 2) then t else t.setPc 0x0200
  placeByte (u.cpu.pc + 2) (BitVec.ofNat 8 (bits / 65536))
    (placeByte (u.cpu.pc + 1) (BitVec.ofNat 8 (bits / 256)) (placeByte u.cpu.pc (BitVec.ofNat 8 bits) u))

end Sys2Proof.Machine
end

