-- ==== Sys2Proof/Machine/PpuTick.lean ====
section
/-! DEFINITION. The PPU's tick (R215 to R230): the events at a position, the pixel, and the advance of the position. -/

namespace Sys2Proof.Machine

/-! ## The sprite-pixel buffer (R220) -/

/-- Bit `b` of a pattern byte pair: `{hi[b], lo[b]}` (R220, R221). -/
def patternPixel (hi lo : Byte) (b : Nat) : BitVec 2 := BitVec.ofBool (hi.getLsbD b) ++ BitVec.ofBool (lo.getLsbD b)

/-- The pattern address of row `rr` of a sprite with tile byte `tile` (R220). -/
def spriteRowAddr (p : Ppu) (tile : Byte) (rr : Nat) : Nat :=
  if p.tallSprites then
    (if tile.getLsbD 0 then 0x1000 else 0) + (tile &&& 0xFE).toNat * 16 + (if rr < 8 then rr else rr + 8)
  else p.spriteTable + tile.toNat * 16 + rr

/-- Paint column `c` of a sprite row on screen row `sy`: `hi` and `lo` are the row's pattern bytes (R220). -/
def paintSpriteColumn (attrs xs hi lo : Byte) (isZero : Bool) (sy c : Nat) (buf : Grid (Option SpritePixel)) :
    Grid (Option SpritePixel) :=
  let sx := xs.toNat + c
  let pix := patternPixel hi lo (if attrs.getLsbD 6 then c else 7 - c)
  if sx > 255 ∨ pix = 0 then buf
  else Grid.set none buf sy sx (some ⟨1#1 ++ attrs.extractLsb 1 0 ++ pix, attrs.getLsbD 5, isZero⟩)

/-- Paint row `r` of sprite `i`, of height `h` (R220). -/
def paintSpriteRow (s : State) (i h r : Nat) (buf : Grid (Option SpritePixel)) : Grid (Option SpritePixel) :=
  let ys := s.ppu.oam.read (4 * i)
  let tile := s.ppu.oam.read (4 * i + 1)
  let attrs := s.ppu.oam.read (4 * i + 2)
  let xs := s.ppu.oam.read (4 * i + 3)
  let sy := ys.toNat + 1 + r
  if sy > 239 then buf
  else
    let addr := spriteRowAddr s.ppu tile (if attrs.getLsbD 7 then h - 1 - r else r)
    let lo := readChr s addr
    let hi := readChr s (addr + 8)
    (List.range 8).foldl (fun b c => paintSpriteColumn attrs xs hi lo (i == 0) sy c b) buf

/-- Paint sprite `i` (R220). -/
def paintSprite (s : State) (i : Nat) (buf : Grid (Option SpritePixel)) : Grid (Option SpritePixel) :=
  let h := if s.ppu.tallSprites then 16 else 8
  (List.range h).foldl (fun b r => paintSpriteRow s i h r b) buf

/-- `ComputeSprites()` (R220): from the transparent buffer, sprite 63 first and sprite 0 last, on top. -/
def computeSprites (s : State) : Grid (Option SpritePixel) := (List.range 64).foldr (paintSprite s) []

/-! ## The attribute-table cache (R219) -/

/-- The entry of the attribute cache for physical nametable `n` at `row`, `col` (R219). -/
def attrEntry (ciram : Memory) (n row col : Nat) : BitVec 2 :=
  let b := ciram.read (n * 0x400 + 0x3C0 + row / 4 * 8 + col / 4)
  let sh := (if row / 2 % 2 = 1 then 4 else 0) + (if col / 2 % 2 = 1 then 2 else 0)
  BitVec.ofNat 2 (b.toNat >>> sh)

/-- The place of an entry in the attribute cache. -/
def attrPlace (n row col : Nat) : Nat := n * 1024 + row * 32 + col

/-- `ComputeAttrCache()` (R219). -/
def computeAttrCache (ciram : Memory) : Table (BitVec 2) :=
  Table.ofValues 0 0 ((List.range 2048).map fun k => attrEntry ciram (k / 1024) (k / 32 % 32) (k % 32))

/-! ## The pixel (R221 to R224) -/

/-- The background pixel at column `p`: its pattern value and its palette index (R221). -/
def backgroundPixel (s : State) (p : Nat) : BitVec 2 × BitVec 5 :=
  let u := s.ppu
  if u.background && (decide (8 ≤ p) || u.backgroundLeft) then
    let fx := (u.x.toNat + p) % 8
    let tile := readNametable s (0x2000 + (u.v.extractLsb 11 0).toNat)
    let addr := u.backgroundTable + tile.toNat * 16 + (fineY u.v).toNat
    let bg := patternPixel (readChr s (addr + 8)) (readChr s addr) (7 - fx)
    if bg = 0 then (0, 0)
    else
      let n := mirrorOf s.mirroring (u.v.extractLsb 11 10).toNat
      let pal := Table.get 0 u.attr (attrPlace n (coarseY u.v).toNat (coarseX u.v).toNat)
      (bg, 0#1 ++ pal ++ bg)
  else (0, 0)

/-- The sprite pixel at row `y`, column `p` (R222). -/
def spritePixelAt (u : Ppu) (y p : Nat) : Option SpritePixel :=
  if u.sprites && (decide (8 ≤ p) || u.spritesLeft) then Grid.get none u.spr y p else none

/-- The palette index the priority multiplexer chooses (R223). -/
def pixelIndex (bg : BitVec 2) (bgidx : BitVec 5) (sp : Option SpritePixel) : BitVec 5 :=
  match sp with
  | none => if bg = 0 then 0 else bgidx
  | some px => if bg = 0 then px.index else if px.behind then bgidx else px.index

/-- Is this pixel a sprite-zero hit? (R224) -/
def spriteZeroHit (u : Ppu) (p : Nat) (bg : BitVec 2) (sp : Option SpritePixel) : Bool :=
  (match sp with | some px => px.zero | none => false) && bg != 0 && u.background && u.sprites && p != 255

/-- The framebuffer write and the sprite-zero hit of the visible pixel (R221 to R224). -/
def drawPixel (s : State) (y p : Nat) : Ppu :=
  let bg := backgroundPixel s p
  let sp := spritePixelAt s.ppu y p
  { s.ppu with
    fb := Grid.set 0 s.ppu.fb y p (s.ppu.palEntry (pixelIndex bg.1 bg.2 sp).toNat)
    s0 := s.ppu.s0 || spriteZeroHit s.ppu p bg.1 sp }

/-- The coarse-X increment of v (R225). -/
def incCoarseX (v : BitVec 15) : BitVec 15 :=
  if coarseX v = 31 then vramAddr (fineY v) (ntY v) (~~~ntX v) (coarseY v) 0
  else vramAddr (fineY v) (ntY v) (ntX v) (coarseY v) (coarseX v + 1)

/-- The Y increment of v (R226). -/
def incY (v : BitVec 15) : BitVec 15 :=
  if (fineY v).toNat < 7 then vramAddr (fineY v + 1) (ntY v) (ntX v) (coarseY v) (coarseX v)
  else if coarseY v = 29 then vramAddr 0 (~~~ntY v) (ntX v) 0 (coarseX v)
  else if coarseY v = 31 then vramAddr 0 (ntY v) (ntX v) 0 (coarseX v)
  else vramAddr 0 (ntY v) (ntX v) (coarseY v + 1) (coarseX v)

/-- The renderer's increments of v after visible pixel `p` (R225, then R226). -/
def scrollAfterPixel (u : Ppu) (p : Nat) : Ppu :=
  let v1 := if u.background && (u.x.toNat + p) % 8 == 7 then incCoarseX u.v else u.v
  { u with v := if u.background && p == 255 then incY v1 else v1 }

/-! ## The events of a tick -/

/-- VBlank begin, at (VBLANK_BEGIN, 0) (R216): the flag and the NMI unless inhibited, the inhibit's end, the frame. -/
def vblankBeginEvent (s : State) : State :=
  let u := s.ppu
  let delivered := { s.out with frames := s.out.frames ++ [⟨u.fb, u.mask⟩] }
  let s1 := { s with ppu := { u with vbl := u.vbl || !u.nmiInhibit, nmiInhibit := false }, out := delivered }
  raiseInterrupt (if !u.nmiInhibit && u.nmiEnabled then .nmi else .none) s1

/-- VBlank end, at (-1, 0) (R217). -/
def vblankEndEvent (s : State) : State :=
  s.withPpu { s.ppu with vbl := false, s0 := false, ovf := false, spr := computeSprites s }

/-- Scroll reload, at pixel 0 of a visible scanline with rendering enabled (R218): the horizontal bits, and on scanline 0
also the vertical bits and the attribute cache. -/
def scrollReload (u : Ppu) : Ppu :=
  let across := vramAddr (fineY u.v) (ntY u.v) (ntX u.t) (coarseY u.v) (coarseX u.t)
  if u.scanline = 0 then
    { u with v := vramAddr (fineY u.t) (ntY u.t) (ntX u.t) (coarseY u.t) (coarseX u.t), attr := computeAttrCache u.ciram }
  else { u with v := across }

/-- Is the scanline visible? (R202) -/
def Ppu.visibleLine (u : Ppu) : Bool := decide (0 ≤ u.scanline) && decide (u.scanline ≤ 239)

/-- The events at the current position, in the order of R215: R216, R217, R218, then R221 to R226 for a visible pixel. -/
def tickEvents (s : State) : State :=
  if s.ppu.scanline = Config.vblankBegin ∧ s.ppu.pixel = 0 then vblankBeginEvent s
  else if s.ppu.scanline = -1 ∧ s.ppu.pixel = 0 then vblankEndEvent s
  else if s.ppu.visibleLine && decide (s.ppu.pixel ≤ 255) then
    let s1 := if s.ppu.pixel == 0 && s.ppu.rendering then s.withPpu (scrollReload s.ppu) else s
    s1.withPpu (scrollAfterPixel (drawPixel s1 s1.ppu.scanline.toNat s1.ppu.pixel) s1.ppu.pixel)
  else s

/-- The advance of the position (R215): pixel 337 of the pre-render line is omitted on odd frames with the background
enabled, and the parity flips as scanline 260 ends. -/
def advancePosition (u : Ppu) : Ppu :=
  let next := if u.scanline = -1 ∧ u.pixel = 336 ∧ u.odd ∧ u.background then 338 else u.pixel + 1
  if next = Config.pixelsPerScanline then
    if u.scanline + 1 = Config.totalScanlines - 1 then { u with pixel := 0, scanline := -1, odd := !u.odd }
    else { u with pixel := 0, scanline := u.scanline + 1 }
  else { u with pixel := next }

/-- `Tick()` of the PPU (R215): the events at the position, then the advance. -/
def ppuTick (s : State) : State :=
  let s1 := tickEvents s
  s1.withPpu (advancePosition s1.ppu)

/-- `n` PPU ticks. -/
def ppuTicks : Nat → State → State
  | 0, s => s
  | n + 1, s => ppuTicks n (ppuTick s)

end Sys2Proof.Machine
end

