-- ==== Sys2Proof/Machine/Cycle.lean ====
section
/-! DEFINITION. The phases of a step (R350): the instruction, its cycle charge, the PPU ticks, the APU ticks, the audio
samples and the interrupt check. -/

namespace Sys2Proof.Machine

/-! ## APU ticks (R262) -/

/-- `Tick()` of the APU (R262): the frame sequencer, the timers, the DMC reader's check. -/
def apuTick (s : State) : Res Unit :=
  let s1 := frameSequencerTick s
  dmcReaderCheck (s1.withApu s1.apu.timersTick)

/-- `n` APU ticks. -/
def apuTicks : Nat → State → Res Unit
  | 0, s => .ok () s
  | n + 1, s => (apuTick s).bind fun _ t => apuTicks n t

/-! ## Audio samples (R356) -/

/-- Append `n` samples of value `x` to a batch, delivering each full batch: the batch left and the batches delivered. -/
def appendSamples : Nat → Rat → List Rat → List Rat × List (List Rat)
  | 0, _, batch => (batch, [])
  | n + 1, x, batch =>
    let longer := batch ++ [x]
    if longer.length = Config.audioBatch then
      let rest := appendSamples n x []
      (rest.1, longer :: rest.2)
    else appendSamples n x longer

/-- The samples a step owes (R350, R356): one per SAMPLE_DIVISOR master cycles, all of the same value (R354). -/
def emitSamples (s : State) : State :=
  let n := s.clock.accSample / Config.sampleDivisor
  let r := appendSamples n s.apu.output s.batch
  { s with
    batch := r.1
    out := { s.out with batches := s.out.batches ++ r.2 }
    clock := { s.clock with accSample := s.clock.accSample % Config.sampleDivisor } }

/-! ## The step's clock (R350) -/

/-- The start of a step: no DMA cycles and no output yet. -/
def beginStep (s : State) : State := { s with clock := { s.clock with dmaCycles := 0 }, out := Output.nothing }

/-- `cyc` of a step (R350, R425): base cycles, OAM DMA of this instruction, cycles owed. -/
def stepCycles (i : Instr) (s : State) : Nat := baseCycles i + s.clock.dmaCycles + s.clock.deferred

/-- The cycle charge (R350): nothing owed any more, and the master cycles added to the three accumulators. -/
def chargeCycles (i : Instr) (s : State) : State :=
  let cyc := stepCycles i s
  let m := cyc * Config.masterPerCpu
  { s with
    clock :=
      { s.clock with
        deferred := 0
        totalCycles := s.clock.totalCycles + cyc
        accPpu := s.clock.accPpu + m
        accApu := s.clock.accApu + m
        accSample := s.clock.accSample + m }
    out := { s.out with cycles := cyc } }

/-- The PPU ticks the accumulator holds (R350). -/
def drainPpu (s : State) : State :=
  ppuTicks (s.clock.accPpu / Config.masterPerPpu)
    { s with clock := { s.clock with accPpu := s.clock.accPpu % Config.masterPerPpu } }

/-- The APU ticks the accumulator holds (R350). -/
def drainApu (s : State) : Res Unit :=
  apuTicks (s.clock.accApu / Config.masterPerApu)
    { s with clock := { s.clock with accApu := s.clock.accApu % Config.masterPerApu } }

/-- What a step does after its instruction `i` (R350). -/
def settle (i : Instr) (s : State) : Result :=
  ((drainApu (drainPpu (chargeCycles i s))).bind fun _ t => .ok () (resolveInterrupt (emitSamples t))).toOutcome

/-- One instruction and what follows it (R350): a fault or a refusal ends the step where it happens (R364). -/
def runInstruction (s : State) : Result :=
  match fetch (beginStep s) with
  | .stop f => .fault f
  | .ok i t =>
    match exec i t with
    | .next u => settle i u
    | .fault f => .fault f
    | .refused r => .refused r

end Sys2Proof.Machine
end

