-- ==== Sys2Proof/Machine/Step.lean ====
section
/-! DEFINITION. The step of the core (R350, R373) and where its next instruction stands. -/

namespace Sys2Proof.Machine

/-- `Step()` (R350): refused, with nothing changed, where a fault is set or no cartridge is loaded (R373). -/
def step (s : State) : Host.Outcome State Fault Refusal :=
  match s.fault with
  | some r => .refused (.faulted r)
  | none => if s.loaded then runInstruction s else .refused .notLoaded

/-- The state with an instruction placed where `step` fetches next (log entry 1). -/
def State.withFetchWord (s : State) (nbits w : Nat) : State := placeInstruction nbits w s

end Sys2Proof.Machine
end

