-- ==== Sys2Proof/Machine/Loader.lean ====
section
/-! DEFINITION. Loading a cartridge and power-up (R321 to R324, R381, R410 to R417). -/

namespace Sys2Proof.Machine

/-- `INIT_MEM` (R9, R417, D19): the power-up contents of every RAM array, an argument of power-up (log entry 2). -/
structure InitMem where
  ram : Memory
  sram : Memory
  chrRam : Vector Memory 8
  ciram : Memory
  pal : Table (BitVec 6)
  oam : Memory
deriving DecidableEq, Repr

/-- The power-up contents in which every byte is unlisted. -/
def InitMem.unlisted : InitMem :=
  { ram := [], sram := [], chrRam := #v[[], [], [], [], [], [], [], []], ciram := [], pal := [], oam := [] }

/-- Why an image does not load (R381): a result kind of its own, not a fault. -/
inductive LoadError where
  /-- `L_BAD_SIGNATURE`. -/
  | badSignature
  /-- `L_HEADER_ONLY`. -/
  | headerOnly
  /-- `L_BAD_LENGTH`. -/
  | badLength
  /-- `L_UNSUPPORTED_MAPPER`. -/
  | unsupportedMapper
  /-- `L_BANK_OVERFLOW`. -/
  | bankOverflow
deriving DecidableEq, Repr

/-- The registers of a mapper at power-up (R416): none for a number above 4. -/
def Mapper.powerUp (number : Nat) (hdrMirroring : Bool) : Option Mapper :=
  match number with
  | 0 => some .mapper0
  | 1 => some (.mapper1 { shift := 0, count := 0, control := 0x0C, chr0 := 0, chr1 := 0, prg := 0 })
  | 2 => some (.mapper2 0)
  | 3 => some (.mapper3 0)
  | 4 => some (.mapper4 { select := 0, r := Vector.replicate 8 0, mirror := !hdrMirroring })
  | _ => none

/-- Power-up of a console with a cartridge and its mapper (R410): every element at its power-up value, the windows computed,
PC from the reset vector. -/
def powerUp (mem : InitMem) (c : Cartridge) (m : Mapper) : State :=
  let s : State :=
    { State.reset with
      ppu := { Ppu.powerUp with ciram := mem.ciram, pal := mem.pal, oam := mem.oam }
      loaded := true
      cart := c
      mapper := m
      win := m.windows c.prgPages
      sram := mem.sram
      ram := mem.ram }
  s.setPc (readVector s 0xFFFC)

/-- The signature `4E 45 53 1A` (R321). -/
def signature : List Byte := [0x4E, 0x45, 0x53, 0x1A]

/-- Byte `i` of an image. -/
def imageByte (bytes : List Byte) (i : Nat) : Byte := bytes.getD i 0

/-- `prg_pages` of a header (R321, R322). -/
def headerPrgPages (bytes : List Byte) : Nat := (imageByte bytes 4).toNat * 2

/-- `chr_pages_hdr` of a header (R321, R322). -/
def headerChrPages (bytes : List Byte) : Nat := (imageByte bytes 5).toNat * 8

/-- The mapper number of a header (R321, R322). -/
def headerMapper (bytes : List Byte) : Nat := ((imageByte bytes 7 &&& 0xF0) ||| (imageByte bytes 6 >>> 4)).toNat

/-- `count` pages of `size` bytes from offset `start` of an image (R324). -/
def imagePages (bytes : List Byte) (start size count : Nat) : List Memory :=
  (List.range count).map fun k => Memory.ofBytes ((bytes.drop (start + size * k)).take size)

/-- The cartridge of a checked image (R324). -/
def imageCartridge (mem : InitMem) (bytes : List Byte) : Cartridge :=
  let n := headerPrgPages bytes
  let c := headerChrPages bytes
  { prg := imagePages bytes 16 8192 n
    chr := if c = 0 then mem.chrRam.toList else imagePages bytes (16 + n * 8192) 1024 c
    chrIsRam := c == 0
    hdrMirroring := (imageByte bytes 6).getLsbD 0
    sramFlag := (imageByte bytes 6).getLsbD 1 }

/-- `LoadCartridge(bytes)` (R321 to R324, R372): the checks in their order, then the cartridge and its mapper, whose windows
must name existing pages (D49), at power-up. -/
def loadCartridge (mem : InitMem) (bytes : List Byte) : Except LoadError State :=
  if bytes.take 4 ≠ signature then .error .badSignature
  else if bytes.length = 16 then .error .headerOnly
  else if bytes.length < 16 then .error .badLength
  else if bytes.length ≠ 16 + headerPrgPages bytes * 8192 + headerChrPages bytes * 1024 then .error .badLength
  else
    let c := imageCartridge mem bytes
    match Mapper.powerUp (headerMapper bytes) c.hdrMirroring with
    | none => .error .unsupportedMapper
    | some m =>
      match (m.windows c.prgPages).overflow c.prgPages c.chrPages with
      | some _ => .error .bankOverflow
      | none => .ok (powerUp mem c m)

end Sys2Proof.Machine
end

