-- ==== Sys2Proof/Machine/HostApi.lean ====
section
/-! DEFINITION. The host's calls between steps (R358, R372): `LoadCartridge` is `loadCartridge`, `Step` is `step`; and a run of a
given number of steps (R432). -/

namespace Sys2Proof.Machine

/-- `SetControllerState(c, buttons)` (R372): the snapshot of controller 1 (`c = 0`) or 2 (`c = 1`); `shift` never changes. -/
def setControllerState (c : Fin 2) (buttons : Byte) (s : State) : State :=
  if c = 0 then { s with pads := { s.pads with pad0 := { s.pads.pad0 with buttons := buttons } } }
  else { s with pads := { s.pads with pad1 := { s.pads.pad1 with buttons := buttons } } }

/-- A run of `fuel` steps (R432, D56): the state after them, or the fault or the refusal of the step that ends the run. The core
never ends it by itself: a program idles in a loop, and a fault is terminal. The outcome holds what the last step delivered (log
entry 15). -/
def runSteps (fuel : Nat) (s : State) : Host.Outcome State Fault Refusal :=
  match fuel with
  | 0 => .next s
  | fuel + 1 =>
    match step s with
    | .next t => runSteps fuel t
    | .fault f => .fault f
    | .refused r => .refused r

/-- `RunUntilAudioBufferFull()` (R358), at most `fuel` steps (log entry 12): it returns after the step that delivers a batch, or
with the fault or the refusal of a step. Of the frames the call's steps delivered, its outcome holds those of the last step
alone, since each step empties `State.out`: DESIGN CHOICE (log entry 15). -/
def runUntilAudioBufferFull (fuel : Nat) (s : State) : Host.Outcome State Fault Refusal :=
  match fuel with
  | 0 => .next s
  | fuel + 1 =>
    match step s with
    | .next t => if t.out.batches.isEmpty then runUntilAudioBufferFull fuel t else .next t
    | .fault f => .fault f
    | .refused r => .refused r

end Sys2Proof.Machine
end

