-- ==== Sys2Proof/Safety.lean ====
section
/-! DEFINITION. The terms claims are stated in: what it is for a form of an instruction to run as its rule says, which
instructions write which register, flag or memory, and the invariants of a safe run. -/

namespace Sys2Proof.Machine

/-! ## Stops and places -/

/-- The outcome of a fatal error raised in the state `left` (R14, R364). -/
def stopsWith (record : Fatal) (left : State) : Result := .fault (.fatal record { left with fault := some record })

/-- Do two addresses reach the same byte of work RAM or SRAM? (R61, R64) -/
def samePlace (a b : Word) : Prop :=
  (regionOf a = .workRam ∧ regionOf b = .workRam ∧ ramPlace a = ramPlace b) ∨ (regionOf a = .sram ∧ a = b)

/-- What a step does once `i` is fetched: `exec` of it, then `settle`; a stop of `exec` is the step's (R350, R364). -/
def runsFetched (i : Instr) (s : State) : Result :=
  match exec i s with
  | .next u => settle i u
  | .fault f => .fault f
  | .refused r => .refused r

/-- Base cycles by opcode byte, a row per high digit, 0 at an illegal byte (R104's table of opcodes and cycles). -/
def cyclesByOpcode : List (List Nat) :=
  [[7, 6, 0, 0, 0, 3, 5, 0, 3, 2, 2, 0, 0, 4, 6, 0],
   [2, 5, 0, 0, 0, 4, 6, 0, 2, 4, 0, 0, 0, 4, 7, 0],
   [6, 6, 0, 0, 3, 3, 5, 0, 4, 2, 2, 0, 4, 4, 6, 0],
   [2, 5, 0, 0, 0, 4, 6, 0, 2, 4, 0, 0, 0, 4, 7, 0],
   [6, 6, 0, 0, 0, 3, 5, 0, 3, 2, 2, 0, 3, 4, 6, 0],
   [2, 5, 0, 0, 0, 4, 6, 0, 2, 4, 0, 0, 0, 4, 7, 0],
   [6, 6, 0, 0, 0, 3, 5, 0, 4, 2, 2, 0, 5, 4, 6, 0],
   [2, 5, 0, 0, 0, 4, 6, 0, 2, 4, 0, 0, 0, 4, 7, 0],
   [0, 6, 0, 0, 3, 3, 3, 0, 2, 0, 2, 0, 4, 4, 4, 0],
   [2, 6, 0, 0, 4, 4, 4, 0, 2, 5, 2, 0, 0, 5, 0, 0],
   [2, 6, 2, 0, 3, 3, 3, 0, 2, 2, 2, 0, 4, 4, 4, 0],
   [2, 5, 0, 0, 4, 4, 4, 0, 2, 4, 2, 0, 4, 4, 4, 0],
   [2, 6, 0, 0, 3, 3, 5, 0, 2, 2, 2, 0, 4, 4, 6, 0],
   [2, 5, 0, 0, 0, 4, 6, 0, 2, 4, 0, 0, 0, 4, 7, 0],
   [2, 6, 0, 0, 3, 3, 5, 0, 2, 2, 2, 0, 4, 4, 6, 0],
   [2, 5, 0, 0, 0, 4, 6, 0, 2, 4, 0, 0, 0, 4, 7, 0]]

/-- The CPU with N and Z of a byte: `Z <- bool(v = 0x00); N <- v[7]` (R110). -/
def Cpu.nz (c : Cpu) (v : Byte) : Cpu := { c with n := v.getLsbD 7, z := decide (v = 0) }

/-! ## A form runs as its rule says -/

/-- The immediate form `i`, encoded as `bytes`, gives the CPU that `f` makes of it and of the operand (R94, R95). -/
def RunsImmediate (bytes : List Byte) (i : Instr) (b1 : Byte) (f : Cpu → Byte → Cpu) : Prop :=
  encode i = bytes ∧ ∀ s, exec i s = .next (s.withCpu (f s.cpu b1))

/-- The form `i` of the read class, encoded as `bytes`: one read of EA, then the CPU that `f` makes of the operand. It
completes wherever the address has a handler, and is the fault of R67 where it has none (R95, R96, R110). -/
def RunsRead (bytes : List Byte) (i : Instr) (m : Mode) (f : Cpu → Byte → Cpu) : Prop :=
  encode i = bytes ∧ ∀ s,
    (regionOf (effectiveAddress m s) ≠ .unmapped →
      ∃ v t, memRead (effectiveAddress m s) s = .ok v t ∧ t.cpu = s.cpu ∧ exec i s = .next (t.withCpu (f s.cpu v))) ∧
    (regionOf (effectiveAddress m s) = .unmapped → exec i s = stopsWith (.busUnmappedRead (effectiveAddress m s)) s)

/-- The form `i` of the write class, encoded as `bytes`: one write of `v` at EA and nothing else. It completes in work RAM and
SRAM, and elsewhere as the write does (R96, R114). -/
def RunsStore (bytes : List Byte) (i : Instr) (m : Mode) (v : Cpu → Byte) : Prop :=
  encode i = bytes ∧ ∀ s,
    (regionOf (effectiveAddress m s) = .workRam →
      exec i s = .next { s with ram := s.ram.write ((effectiveAddress m s).toNat % 0x800) (v s.cpu) }) ∧
    (regionOf (effectiveAddress m s) = .sram →
      exec i s = .next { s with sram := s.sram.write ((effectiveAddress m s).toNat - 0x6000) (v s.cpu) }) ∧
    (∀ t, memWrite (effectiveAddress m s) (v s.cpu) s = .ok () t → t.cpu = s.cpu ∧ exec i s = .next t) ∧
    (∀ f, memWrite (effectiveAddress m s) (v s.cpu) s = .stop f → exec i s = .fault f)

/-- The memory form `i` of the read-modify-write class, encoded as `bytes`: one read of EA, the carry `k`, one write of the
result `r` at EA, then N and Z of the result. It completes in work RAM and SRAM, and elsewhere as its two accesses do (R96,
R150). -/
def RunsModify (bytes : List Byte) (i : Instr) (m : Mode) (r : Cpu → Byte → Byte) (k : Cpu → Byte → Bool) : Prop :=
  encode i = bytes ∧ ∀ s,
    (regionOf (effectiveAddress m s) = .workRam →
      ∀ v, v = s.ram.read ((effectiveAddress m s).toNat % 0x800) →
        exec i s = .next { s with ram := s.ram.write ((effectiveAddress m s).toNat % 0x800) (r s.cpu v),
                                  cpu := ({ s.cpu with c := k s.cpu v } : Cpu).nz (r s.cpu v) }) ∧
    (regionOf (effectiveAddress m s) = .sram →
      ∀ v, v = s.sram.read ((effectiveAddress m s).toNat - 0x6000) →
        exec i s = .next { s with sram := s.sram.write ((effectiveAddress m s).toNat - 0x6000) (r s.cpu v),
                                  cpu := ({ s.cpu with c := k s.cpu v } : Cpu).nz (r s.cpu v) }) ∧
    (∀ v t u, memRead (effectiveAddress m s) s = .ok v t →
      memWrite (effectiveAddress m s) (r s.cpu v) (t.withCpu { s.cpu with c := k s.cpu v }) = .ok () u →
      exec i s = .next (u.withCpu (({ s.cpu with c := k s.cpu v } : Cpu).nz (r s.cpu v)))) ∧
    (∀ v t f, memRead (effectiveAddress m s) s = .ok v t →
      memWrite (effectiveAddress m s) (r s.cpu v) (t.withCpu { s.cpu with c := k s.cpu v }) = .stop f →
      exec i s = .fault f) ∧
    (regionOf (effectiveAddress m s) = .unmapped → exec i s = stopsWith (.busUnmappedRead (effectiveAddress m s)) s)

/-- The form `i`, encoded as `bytes`, completes in every state, with the CPU that `f` makes of it (R93). -/
def RunsOnCpu (bytes : List Byte) (i : Instr) (f : Cpu → Cpu) : Prop :=
  encode i = bytes ∧ ∀ s, exec i s = .next (s.withCpu (f s.cpu))

/-- The branch `i`, encoded as `bytes`: two cycles always; PC plus the signed offset, modulo 65,536, where the condition holds,
and no change where it does not (R102, R160). -/
def RunsBranch (bytes : List Byte) (i : Instr) (b1 : Byte) (cond : Cpu → Bool) : Prop :=
  encode i = bytes ∧ baseCycles i = 2 ∧ ∀ s,
    (cond s.cpu = true → ∃ target : Word,
      (target.toNat : Int) = ((s.cpu.pc.toNat : Int) + b1.toInt) % 65536 ∧ exec i s = .next (s.setPc target)) ∧
    (cond s.cpu = false → exec i s = .next s)

/-! ## Who writes what -/

/-- The mnemonic of an instruction (R104). -/
def mnemonicOf (i : Instr) : String :=
  match i with
  | .ldaImm _ => "LDA"
  | .ldaZp _ => "LDA"
  | .ldaZpX _ => "LDA"
  | .ldaAbs _ => "LDA"
  | .ldaAbsX _ => "LDA"
  | .ldaAbsY _ => "LDA"
  | .ldaIndX _ => "LDA"
  | .ldaIndY _ => "LDA"
  | .ldxImm _ => "LDX"
  | .ldxZp _ => "LDX"
  | .ldxZpY _ => "LDX"
  | .ldxAbs _ => "LDX"
  | .ldxAbsY _ => "LDX"
  | .ldyImm _ => "LDY"
  | .ldyZp _ => "LDY"
  | .ldyZpX _ => "LDY"
  | .ldyAbs _ => "LDY"
  | .ldyAbsX _ => "LDY"
  | .staZp _ => "STA"
  | .staZpX _ => "STA"
  | .staAbs _ => "STA"
  | .staAbsX _ => "STA"
  | .staAbsY _ => "STA"
  | .staIndX _ => "STA"
  | .staIndY _ => "STA"
  | .stxZp _ => "STX"
  | .stxZpY _ => "STX"
  | .stxAbs _ => "STX"
  | .styZp _ => "STY"
  | .styZpX _ => "STY"
  | .styAbs _ => "STY"
  | .tax => "TAX"
  | .tay => "TAY"
  | .txa => "TXA"
  | .tya => "TYA"
  | .tsx => "TSX"
  | .txs => "TXS"
  | .adcImm _ => "ADC"
  | .adcZp _ => "ADC"
  | .adcZpX _ => "ADC"
  | .adcAbs _ => "ADC"
  | .adcAbsX _ => "ADC"
  | .adcAbsY _ => "ADC"
  | .adcIndX _ => "ADC"
  | .adcIndY _ => "ADC"
  | .sbcImm _ => "SBC"
  | .sbcZp _ => "SBC"
  | .sbcZpX _ => "SBC"
  | .sbcAbs _ => "SBC"
  | .sbcAbsX _ => "SBC"
  | .sbcAbsY _ => "SBC"
  | .sbcIndX _ => "SBC"
  | .sbcIndY _ => "SBC"
  | .andImm _ => "AND"
  | .andZp _ => "AND"
  | .andZpX _ => "AND"
  | .andAbs _ => "AND"
  | .andAbsX _ => "AND"
  | .andAbsY _ => "AND"
  | .andIndX _ => "AND"
  | .andIndY _ => "AND"
  | .oraImm _ => "ORA"
  | .oraZp _ => "ORA"
  | .oraZpX _ => "ORA"
  | .oraAbs _ => "ORA"
  | .oraAbsX _ => "ORA"
  | .oraAbsY _ => "ORA"
  | .oraIndX _ => "ORA"
  | .oraIndY _ => "ORA"
  | .eorImm _ => "EOR"
  | .eorZp _ => "EOR"
  | .eorZpX _ => "EOR"
  | .eorAbs _ => "EOR"
  | .eorAbsX _ => "EOR"
  | .eorAbsY _ => "EOR"
  | .eorIndX _ => "EOR"
  | .eorIndY _ => "EOR"
  | .cmpImm _ => "CMP"
  | .cmpZp _ => "CMP"
  | .cmpZpX _ => "CMP"
  | .cmpAbs _ => "CMP"
  | .cmpAbsX _ => "CMP"
  | .cmpAbsY _ => "CMP"
  | .cmpIndX _ => "CMP"
  | .cmpIndY _ => "CMP"
  | .cpxImm _ => "CPX"
  | .cpxZp _ => "CPX"
  | .cpxAbs _ => "CPX"
  | .cpyImm _ => "CPY"
  | .cpyZp _ => "CPY"
  | .cpyAbs _ => "CPY"
  | .bitZp _ => "BIT"
  | .bitAbs _ => "BIT"
  | .incZp _ => "INC"
  | .incZpX _ => "INC"
  | .incAbs _ => "INC"
  | .incAbsX _ => "INC"
  | .decZp _ => "DEC"
  | .decZpX _ => "DEC"
  | .decAbs _ => "DEC"
  | .decAbsX _ => "DEC"
  | .inx => "INX"
  | .iny => "INY"
  | .dex => "DEX"
  | .dey => "DEY"
  | .aslAcc => "ASL"
  | .aslZp _ => "ASL"
  | .aslZpX _ => "ASL"
  | .aslAbs _ => "ASL"
  | .aslAbsX _ => "ASL"
  | .lsrAcc => "LSR"
  | .lsrZp _ => "LSR"
  | .lsrZpX _ => "LSR"
  | .lsrAbs _ => "LSR"
  | .lsrAbsX _ => "LSR"
  | .rolAcc => "ROL"
  | .rolZp _ => "ROL"
  | .rolZpX _ => "ROL"
  | .rolAbs _ => "ROL"
  | .rolAbsX _ => "ROL"
  | .rorAcc => "ROR"
  | .rorZp _ => "ROR"
  | .rorZpX _ => "ROR"
  | .rorAbs _ => "ROR"
  | .rorAbsX _ => "ROR"
  | .bccRel _ => "BCC"
  | .bcsRel _ => "BCS"
  | .beqRel _ => "BEQ"
  | .bneRel _ => "BNE"
  | .bmiRel _ => "BMI"
  | .bplRel _ => "BPL"
  | .bvcRel _ => "BVC"
  | .bvsRel _ => "BVS"
  | .jmpAbs _ => "JMP"
  | .jmpInd _ => "JMP"
  | .jsrAbs _ => "JSR"
  | .rts => "RTS"
  | .brk => "BRK"
  | .rti => "RTI"
  | .pha => "PHA"
  | .php => "PHP"
  | .pla => "PLA"
  | .plp => "PLP"
  | .clc => "CLC"
  | .sec => "SEC"
  | .cli => "CLI"
  | .sei => "SEI"
  | .cld => "CLD"
  | .sed => "SED"
  | .clv => "CLV"
  | .nop => "NOP"

/-- The six flags (R23). -/
inductive Flag where
  | n
  | v
  | d
  | i
  | z
  | c
deriving DecidableEq, Repr

/-- A flag of the CPU. -/
def Cpu.flag (c : Cpu) (f : Flag) : Bool :=
  match f with
  | .n => c.n
  | .v => c.v
  | .d => c.d
  | .i => c.i
  | .z => c.z
  | .c => c.c

/-- The mnemonics that write a flag: the table of R26. -/
def flagWriters (f : Flag) : List String :=
  match f with
  | .n | .z =>
    ["LDA", "LDX", "LDY", "TAX", "TAY", "TXA", "TYA", "TSX", "PLA", "AND", "ORA", "EOR", "ADC", "SBC", "CMP", "CPX", "CPY",
     "INC", "DEC", "INX", "INY", "DEX", "DEY", "ASL", "LSR", "ROL", "ROR", "BIT", "PLP", "RTI"]
  | .c => ["ADC", "SBC", "CMP", "CPX", "CPY", "ASL", "LSR", "ROL", "ROR", "CLC", "SEC", "PLP", "RTI"]
  | .v => ["ADC", "SBC", "BIT", "CLV", "PLP", "RTI"]
  | .i => ["SEI", "CLI", "PLP", "RTI"]
  | .d => ["SED", "CLD", "PLP", "RTI"]

/-- Is it the accumulator form of a shift or rotate? -/
def onAccumulator (i : Instr) : Prop := i = .aslAcc ∨ i = .lsrAcc ∨ i = .rolAcc ∨ i = .rorAcc

/-- The mnemonics that write A in every form (R20). -/
def writersOfA : List String := ["LDA", "PLA", "TXA", "TYA", "ADC", "SBC", "AND", "ORA", "EOR"]

/-- The mnemonics that write X (R20). -/
def writersOfX : List String := ["LDX", "TAX", "TSX", "INX", "DEX"]

/-- The mnemonics that write Y (R20). -/
def writersOfY : List String := ["LDY", "TAY", "INY", "DEY"]

/-- The mnemonics that write S (R21). -/
def writersOfS : List String := ["TXS", "PHA", "PHP", "PLA", "PLP", "JSR", "RTS", "RTI"]

/-- The mnemonics that write PC beyond the fetch's advance (R160 to R173). -/
def writersOfPc : List String :=
  ["BCC", "BCS", "BEQ", "BNE", "BMI", "BPL", "BVC", "BVS", "JMP", "JSR", "RTS", "RTI", "BRK"]

/-- The mode of the operand in memory that a store or a read-modify-write instruction writes (R96); none for any other form. -/
def destinationOf (i : Instr) : Option Mode :=
  match i with
  | .staZp b1 => some (.zp b1)
  | .staZpX b1 => some (.zpX b1)
  | .staAbs w => some (.abs w)
  | .staAbsX w => some (.absX w)
  | .staAbsY w => some (.absY w)
  | .staIndX b1 => some (.indX b1)
  | .staIndY b1 => some (.indY b1)
  | .stxZp b1 => some (.zp b1)
  | .stxZpY b1 => some (.zpY b1)
  | .stxAbs w => some (.abs w)
  | .styZp b1 => some (.zp b1)
  | .styZpX b1 => some (.zpX b1)
  | .styAbs w => some (.abs w)
  | .incZp b1 => some (.zp b1)
  | .incZpX b1 => some (.zpX b1)
  | .incAbs w => some (.abs w)
  | .incAbsX w => some (.absX w)
  | .decZp b1 => some (.zp b1)
  | .decZpX b1 => some (.zpX b1)
  | .decAbs w => some (.abs w)
  | .decAbsX w => some (.absX w)
  | .aslZp b1 => some (.zp b1)
  | .aslZpX b1 => some (.zpX b1)
  | .aslAbs w => some (.abs w)
  | .aslAbsX w => some (.absX w)
  | .lsrZp b1 => some (.zp b1)
  | .lsrZpX b1 => some (.zpX b1)
  | .lsrAbs w => some (.abs w)
  | .lsrAbsX w => some (.absX w)
  | .rolZp b1 => some (.zp b1)
  | .rolZpX b1 => some (.zpX b1)
  | .rolAbs w => some (.abs w)
  | .rolAbsX w => some (.absX w)
  | .rorZp b1 => some (.zp b1)
  | .rorZpX b1 => some (.zpX b1)
  | .rorAbs w => some (.abs w)
  | .rorAbsX w => some (.absX w)
  | _ => none

/-- The instructions that push (R170, R180, R181). BRK's pushes are the interrupt entry's (R172). -/
def pushes (i : Instr) : Prop := mnemonicOf i = "PHA" ∨ mnemonicOf i = "PHP" ∨ mnemonicOf i = "JSR"

/-! ## The picture's parts -/

/-- The address `v0` from which the pixel at row `y`, column `p` is rendered: v, reloaded from t at column 0 where rendering is
enabled, its vertical fields on row 0 alone (R218). -/
def RendersFrom (u : Ppu) (y p : Nat) (v0 : BitVec 15) : Prop :=
  if p = 0 ∧ (u.mask.getLsbD 3 = true ∨ u.mask.getLsbD 4 = true) then
    ntX v0 = ntX u.t ∧ coarseX v0 = coarseX u.t ∧
    fineY v0 = (if y = 0 then fineY u.t else fineY u.v) ∧ ntY v0 = (if y = 0 then ntY u.t else ntY u.v) ∧
    coarseY v0 = (if y = 0 then coarseY u.t else coarseY u.v)
  else v0 = u.v

/-- Sprite `i` lies over row `y`, column `x`, with the pattern value `pix` there (0 is transparent): its row and column in the
sprite, flipped by its attribute bits 7 and 6, and the two pattern bytes of that row (R220). -/
def SpritePuts (s : State) (i y x pix : Nat) : Prop :=
  let tile := (s.ppu.oam.read (4 * i + 1)).toNat
  let attrs := s.ppu.oam.read (4 * i + 2)
  let h := if s.ppu.ctrl.getLsbD 5 then 16 else 8
  ∃ r c, r < h ∧ c < 8 ∧ y = (s.ppu.oam.read (4 * i)).toNat + 1 + r ∧ x = (s.ppu.oam.read (4 * i + 3)).toNat + c ∧
    let row := if attrs.getLsbD 7 then h - 1 - r else r
    let bit := if attrs.getLsbD 6 then c else 7 - c
    let addr :=
      if s.ppu.ctrl.getLsbD 5 then tile % 2 * 0x1000 + tile / 2 * 32 + (if row < 8 then row else row + 8)
      else (if s.ppu.ctrl.getLsbD 3 then 0x1000 else 0) + tile * 16 + row
    pix = (if (readChr s (addr + 8)).getLsbD bit then 2 else 0) + (if (readChr s addr).getLsbD bit then 1 else 0)

/-! ## The mapper -/

/-- Every window names a page that exists, of `n` PRG pages and `c` CHR pages (R327). -/
def Windows.Fit (w : Windows) (n c : Nat) : Prop := (∀ i (_ : i < 4), w.prg[i] < n) ∧ ∀ i (_ : i < 8), w.chr[i] < c

/-- The window `k` names a page that is missing, of `n` PRG pages and `c` CHR pages (R327). -/
def Windows.Lacks (w : Windows) (n c : Nat) : Window → Prop
  | .prg i => n ≤ w.prg[i]
  | .chr i => c ≤ w.chr[i]

/-- The write of `v` at `a` gives the mapper the registers `m` and recomputes the windows: it goes on with the new windows where
each names a page that exists, and is `BANK_OVERFLOW` where one does not, with the registers written and no window changed
(R17, R326, R327, R328). Which missing window the record names is left open (log entry 14). -/
def MapperTakes (s : State) (a : Word) (v : Byte) (m : Mapper) : Prop :=
  let w := m.windows s.cart.prgPages
  (w.Fit s.cart.prgPages s.cart.chrPages → memWrite a v s = .ok () { s with mapper := m, win := w }) ∧
  (¬ w.Fit s.cart.prgPages s.cart.chrPages → ∃ k, w.Lacks s.cart.prgPages s.cart.chrPages k ∧
    memWrite a v s = .stop (.fatal (.bankOverflow a v k) { s with mapper := m, fault := some (.bankOverflow a v k) }))

/-! ## Invariants of a safe run -/

/-- Every listed place of a table is below `n`. -/
def Below {α : Type} (n : Nat) (t : Table α) : Prop := ∀ p ∈ t, p.1 < n

/-- A memory of `n` bytes: canonical, with no place beyond its size. -/
def Memory.Sized (n : Nat) (m : Memory) : Prop := m.wf ∧ Below n m

/-- A grid of 240 rows and 256 columns: canonical, with no place beyond. -/
def Grid.Screen {α : Type} [DecidableEq α] (d : α) (g : Grid α) : Prop :=
  Grid.Wf d g ∧ Below 240 g ∧ ∀ p ∈ g, Below 256 p.2

/-- Every memory is in its canonical form and of its size (R37 to R40, R47, R49, R50; log entry 2). -/
structure MemoryInv (s : State) : Prop where
  ram : s.ram.Sized 0x800
  sram : s.sram.Sized 0x2000
  prg : ∀ m ∈ s.cart.prg, m.Sized 0x2000
  chr : ∀ m ∈ s.cart.chr, m.Sized 0x400
  ciram : s.ppu.ciram.Sized 0x800
  oam : s.ppu.oam.Sized 256
  pal : Table.Wf 0 s.ppu.pal ∧ Below 32 s.ppu.pal
  attr : Table.Wf 0 s.ppu.attr ∧ Below 2048 s.ppu.attr
  spr : Grid.Screen none s.ppu.spr
  fb : Grid.Screen 0 s.ppu.fb

/-- The PPU's position is in its range and the overflow bit is 0 (R35, R228, R230). -/
structure PpuInv (s : State) : Prop where
  line : -1 ≤ s.ppu.scanline ∧ s.ppu.scanline ≤ 260
  pixel : s.ppu.pixel ≤ 340
  ovf : s.ppu.ovf = false

/-- The APU's values are in their ranges (R291): the sequencer's count below its sequence's length, 1 to 8 bits left in the
DMC's shift register, a shift register of the noise channel that is not 0. -/
structure ApuInv (s : State) : Prop where
  fourStep : s.apu.frame.mode5 = false → s.apu.frame.fcount < 14914
  fiveStep : s.apu.frame.mode5 = true → s.apu.frame.fcount < 18640
  bits : 1 ≤ s.apu.dmc.bitsLeft.toNat ∧ s.apu.dmc.bitsLeft.toNat ≤ 8
  lfsr : s.apu.noise.lfsr ≠ 0

/-- The DMC reader's addresses lie where a read cannot fault (R279): a sample starts at 0xC000 or above, and one in progress
is read at 0x8000 or above. -/
structure DmcInv (s : State) : Prop where
  start : 0xC000 ≤ s.apu.dmc.sampleAddr.toNat
  current : s.apu.dmc.bytesLeft ≠ 0 → 0x8000 ≤ s.apu.dmc.curAddr.toNat

/-- Between steps the latch holds nothing or a masked IRQ, and no break is pending (R395). -/
structure LatchInv (s : State) : Prop where
  latch : s.latch = .none ∨ (s.latch = .irqBrk ∧ s.cpu.i = true)
  brk : s.cpu.brk = false

/-- Between steps no PPU tick and at most half an APU tick is owed (R353). -/
structure ClockInv (s : State) : Prop where
  ppu : s.clock.accPpu = 0
  apu : s.clock.accApu = 0 ∨ s.clock.accApu = 12

/-- The windows of a loaded console are those of the mapper's registers, and each names a page that exists (R69, R326, R327). -/
def WindowsInv (s : State) : Prop :=
  s.loaded = true →
    s.win = s.mapper.windows s.cart.prgPages ∧ s.win.Fit s.cart.prgPages s.cart.chrPages

/-- The samples awaiting delivery are fewer than a batch (R356). -/
def BatchInv (s : State) : Prop := s.batch.length < Config.audioBatch

end Sys2Proof.Machine
end

