-- ==== Sys2Proof/Certificates/Slice0/Obligations.lean ====
section
/-! DEFINITION. The statements for the provers, rule by rule of the spec. -/

section

open Sys2Proof Sys2Proof.Machine

/-! ## Encoding and the step -/

/-- R90, R104: words of every family, written out from the opcode map, decode to the instruction they stand for. -/
def Obligations.SpecWordsDecode : Prop :=
  decode [0xA9, 0x80] = .ok (.ldaImm 0x80, []) ∧
  decode [0xB6, 0xFF] = .ok (.ldxZpY 0xFF, []) ∧
  decode [0x8D, 0x00, 0x03] = .ok (.staAbs 0x0300, []) ∧
  decode [0x9A] = .ok (.txs, []) ∧
  decode [0x61, 0x20] = .ok (.adcIndX 0x20, []) ∧
  decode [0xD9, 0x34, 0x12] = .ok (.cmpAbsY 0x1234, []) ∧
  decode [0xF6, 0x10] = .ok (.incZpX 0x10, []) ∧
  decode [0x6A] = .ok (.rorAcc, []) ∧
  decode [0x1E, 0xFF, 0x02] = .ok (.aslAbsX 0x02FF, []) ∧
  decode [0xD0, 0xFB] = .ok (.bneRel 0xFB, []) ∧
  decode [0x6C, 0xFF, 0x10] = .ok (.jmpInd 0x10FF, []) ∧
  decode [0x00] = .ok (.brk, []) ∧
  decode [0x28] = .ok (.plp, []) ∧
  decode [0xEA] = .ok (.nop, []) ∧
  decode [0x89, 0x00] = .error (.unknownOpcode 0x89)

/-- R90, R104: decoding the bytes of an instruction gives it back, whatever bytes follow. -/
def Obligations.DecodeGivesBackEncoded : Prop :=
  ∀ (i : Instr) (rest : List Byte), decode (encode i ++ rest) = .ok (i, rest)

/-- R90, R104, R105: what decodes is the encoding of what it decodes to, and the byte strings that are one whole instruction
are those of a legal opcode followed by the operand bytes of its format. -/
def Obligations.OnlyEncodingsDecode : Prop :=
  (∀ bs i rest, decode bs = .ok (i, rest) → bs = encode i ++ rest) ∧
  (∀ bs, encodingWellFormed bs = true ↔ ∃ i, decode bs = .ok (i, []))

/-- R105, R91: the 105 illegal bytes are those without a row in the opcode map, and fetching one, from memory or from a device,
is `UNKNOWN_OPCODE` with the opcode's address and byte, PC already advanced. -/
def Obligations.IllegalOpcodeFaults : Prop :=
  illegalOpcodes.length = 105 ∧ (∀ op : Byte, op.toNat ∈ illegalOpcodes ↔ opcodeRow op = none) ∧
  ∀ (s t : State) (op : Byte), s.fault = none → s.loaded = true → memRead s.cpu.pc (beginStep s) = .ok op t →
    op.toNat ∈ illegalOpcodes →
    step s = stopsWith (.unknownOpcode s.cpu.pc op) (t.setPc (s.cpu.pc + 1))

/-- R91, R350, R86, R67: where the bytes at PC, in memory, are one instruction, `step` is `exec` of it with PC past its bytes,
then the ticks, the samples and the interrupt check (`settle`); a stop of `exec` is the step's. The same through the bus, byte
by byte, wherever the bytes come from: each byte is one read at PC, with that read's effects, and PC is past it. Where a byte that
the opcode asks for lies at an address without a handler, the step is BUS_UNMAPPED_READ, after the bytes before it. -/
def Obligations.StepRunsDecodedInstruction : Prop :=
  ∀ s : State, s.fault = none → s.loaded = true →
    let pc := s.cpu.pc
    (∀ bs i, decode bs = .ok (i, []) →
      (∀ k (h : k < bs.length), s.byteAt (pc + BitVec.ofNat 16 k) = some bs[k]) →
      step s = runsFetched i ((beginStep s).setPc (pc + BitVec.ofNat 16 bs.length))) ∧
    (regionOf pc = .unmapped → step s = stopsWith (.busUnmappedRead pc) (beginStep s)) ∧
    (∀ op t, memRead pc (beginStep s) = .ok op t →
      let t1 := t.setPc (pc + 1)
      (∀ i, decode [op] = .ok (i, []) → step s = runsFetched i t1) ∧
      (regionOf (pc + 1) = .unmapped → step s =
        match decode [op] with
        | .ok (i, _) => runsFetched i t1
        | .error (.missingOperand _) => stopsWith (.busUnmappedRead (pc + 1)) t1
        | .error _ => stopsWith (.unknownOpcode pc op) t1) ∧
      (∀ b1 u, memRead (pc + 1) t1 = .ok b1 u →
        let u1 := u.setPc (pc + 2)
        (∀ i, decode [op, b1] = .ok (i, []) → step s = runsFetched i u1) ∧
        (regionOf (pc + 2) = .unmapped → step s =
          match decode [op], decode [op, b1] with
          | .ok (i, _), _ => runsFetched i t1
          | .error (.missingOperand _), .ok (i, _) => runsFetched i u1
          | .error (.missingOperand _), .error _ => stopsWith (.busUnmappedRead (pc + 2)) u1
          | .error _, _ => stopsWith (.unknownOpcode pc op) t1) ∧
        (∀ b2 w i, memRead (pc + 2) u1 = .ok b2 w → decode [op, b1, b2] = .ok (i, []) →
          step s = runsFetched i (w.setPc (pc + 3)))))

/-- R104, R350, R351, R353, R425: a step begins with no DMA cycles and no output. After an instruction that leaves no PPU time
owed, `cyc = base + dma + deferred` cycles are charged, the PPU ticks `3 * cyc` times, then the APU
`floor((acc_apu + 12 * cyc) / 24)` times, then the samples and the interrupt check; ticks are run one after another, and base is
the opcode's count of cycles in the table. A step that goes on counts its cycles, two at least. -/
def Obligations.StepClock : Prop :=
  (∀ (i : Instr) (u : State) (cyc : Nat), u.clock.accPpu = 0 → cyc = baseCycles i + u.clock.dmaCycles + u.clock.deferred →
    ∀ charged ticked : State,
      charged = { u with
        clock := { u.clock with deferred := 0, totalCycles := u.clock.totalCycles + cyc, accPpu := 0,
                                accApu := u.clock.accApu + 12 * cyc, accSample := u.clock.accSample + 12 * cyc }
        out := { u.out with cycles := cyc } } →
      ticked = ppuTicks (3 * cyc) charged →
      settle i u =
        ((apuTicks ((u.clock.accApu + 12 * cyc) / 24)
          { ticked with clock := { ticked.clock with accApu := (u.clock.accApu + 12 * cyc) % 24 } }).bind
            fun _ w => .ok () (resolveInterrupt (emitSamples w))).toOutcome) ∧
  (∀ s, beginStep s = { s with clock := { s.clock with dmaCycles := 0 }, out := { cycles := 0, frames := [], batches := [] } }) ∧
  (∀ i op rest, encode i = op :: rest → baseCycles i = (cyclesByOpcode.getD (op.toNat / 16) []).getD (op.toNat % 16) 0) ∧
  (∀ s, ppuTicks 0 s = s ∧ apuTicks 0 s = .ok () s) ∧
  (∀ n s, ppuTicks (n + 1) s = ppuTicks n (ppuTick s) ∧ apuTicks (n + 1) s = (apuTick s).bind fun _ u => apuTicks n u) ∧
  (∀ s t, step s = .next t → t.clock.totalCycles = s.clock.totalCycles + t.out.cycles ∧ 2 ≤ t.out.cycles)

/-- R358, R364, R373, R432: `Step`, `RunUntilAudioBufferFull` and a run of a given number of steps are refused where a fault is set
or no cartridge is loaded, and there only: of a loaded console without a fault none is refused, for every bound on the steps of
the call (log entry 12) and every number of steps of the run. The call runs `Step` until one delivers a batch, which ends it with
that step's state, or until one faults, which ends it with the fault; a greater bound changes nothing of a call so ended.
A run takes exactly its number of steps, one after another, and reports the state after them, or the fault of the first step that
faults, whose record the state left holds, so that nothing runs after it; the call is a run of as many steps as it took. -/
def Obligations.StepRefusals : Prop :=
  (∀ s r, s.fault = some r → step s = .refused (.faulted r)) ∧
  (∀ s, s.fault = none → s.loaded = false → step s = .refused .notLoaded) ∧
  (∀ s r fuel, s.fault = some r → runUntilAudioBufferFull (fuel + 1) s = .refused (.faulted r)) ∧
  (∀ s fuel, s.fault = none → s.loaded = false → runUntilAudioBufferFull (fuel + 1) s = .refused .notLoaded) ∧
  (∀ s q, s.fault = none → s.loaded = true → step s ≠ .refused q) ∧
  (∀ s q fuel, s.fault = none → s.loaded = true → runUntilAudioBufferFull fuel s ≠ .refused q) ∧
  (∀ s t fuel, step s = .next t → t.out.batches ≠ [] → runUntilAudioBufferFull (fuel + 1) s = .next t) ∧
  (∀ s f fuel, step s = .fault f → runUntilAudioBufferFull (fuel + 1) s = .fault f) ∧
  (∀ s t fuel, step s = .next t → t.out.batches = [] →
    runUntilAudioBufferFull (fuel + 1) s = runUntilAudioBufferFull fuel t) ∧
  (∀ s t fuel, runUntilAudioBufferFull (fuel + 1) s = .next t → t.out.batches ≠ [] →
    ∀ more, runUntilAudioBufferFull (fuel + 1 + more) s = .next t) ∧
  (∀ s f fuel, runUntilAudioBufferFull fuel s = .fault f → ∀ more, runUntilAudioBufferFull (fuel + more) s = .fault f) ∧
  (∀ s, runSteps 0 s = .next s ∧ runSteps 1 s = step s) ∧
  (∀ s n m, runSteps (n + m) s =
    match runSteps n s with
    | .next t => runSteps m t
    | .fault f => .fault f
    | .refused r => .refused r) ∧
  (∀ s r n, s.fault = some r → runSteps (n + 1) s = .refused (.faulted r)) ∧
  (∀ s n, s.fault = none → s.loaded = false → runSteps (n + 1) s = .refused .notLoaded) ∧
  (∀ s q n, s.fault = none → s.loaded = true → runSteps n s ≠ .refused q) ∧
  (∀ s record left n, runSteps n s = .fault (.fatal record left) →
    left.fault = some record ∧ ∀ m, runSteps (m + 1) left = .refused (.faulted record)) ∧
  (∀ s t fuel, runUntilAudioBufferFull fuel s = .next t → ∃ n ≤ fuel, runSteps n s = .next t) ∧
  (∀ s f fuel, runUntilAudioBufferFull fuel s = .fault f → ∃ n ≤ fuel, runSteps n s = .fault f)

/-! ## Addressing modes and instructions -/

/-- R97, R98, R100, R101: the effective address of every mode, the two pointer bytes read through the bus. -/
def Obligations.EffectiveAddresses : Prop :=
  ∀ (s : State) (b : Byte) (w : Word),
    (effectiveAddress (.zp b) s).toNat = b.toNat ∧
    (effectiveAddress (.zpX b) s).toNat = (b.toNat + s.cpu.x.toNat) % 256 ∧
    (effectiveAddress (.zpY b) s).toNat = (b.toNat + s.cpu.y.toNat) % 256 ∧
    effectiveAddress (.abs w) s = w ∧
    (effectiveAddress (.absX w) s).toNat = (w.toNat + s.cpu.x.toNat) % 65536 ∧
    (effectiveAddress (.absY w) s).toNat = (w.toNat + s.cpu.y.toNat) % 65536 ∧
    (∃ lo hi : Byte,
      memRead (BitVec.ofNat 16 ((b.toNat + s.cpu.x.toNat) % 256)) s = .ok lo s ∧
      memRead (BitVec.ofNat 16 ((b.toNat + s.cpu.x.toNat + 1) % 256)) s = .ok hi s ∧
      (effectiveAddress (.indX b) s).toNat = hi.toNat * 256 + lo.toNat) ∧
    (∃ lo hi : Byte,
      memRead (BitVec.ofNat 16 b.toNat) s = .ok lo s ∧
      memRead (BitVec.ofNat 16 ((b.toNat + 1) % 256)) s = .ok hi s ∧
      (effectiveAddress (.indY b) s).toNat = (hi.toNat * 256 + lo.toNat + s.cpu.y.toNat) % 65536)

/-- R111, R112, R113: LDA, LDX and LDY in every form. -/
def Obligations.LoadsRun : Prop :=
  ∀ (b : Byte) (w : Word),
    let lda : Cpu → Byte → Cpu := fun c m => ({ c with a := m } : Cpu).nz m
    let ldx : Cpu → Byte → Cpu := fun c m => ({ c with x := m } : Cpu).nz m
    let ldy : Cpu → Byte → Cpu := fun c m => ({ c with y := m } : Cpu).nz m
    RunsImmediate [0xA9, b] (.ldaImm b) b lda ∧
    RunsRead [0xA5, b] (.ldaZp b) (.zp b) lda ∧
    RunsRead [0xB5, b] (.ldaZpX b) (.zpX b) lda ∧
    RunsRead [0xAD, loByte w, hiByte w] (.ldaAbs w) (.abs w) lda ∧
    RunsRead [0xBD, loByte w, hiByte w] (.ldaAbsX w) (.absX w) lda ∧
    RunsRead [0xB9, loByte w, hiByte w] (.ldaAbsY w) (.absY w) lda ∧
    RunsRead [0xA1, b] (.ldaIndX b) (.indX b) lda ∧
    RunsRead [0xB1, b] (.ldaIndY b) (.indY b) lda ∧
    RunsImmediate [0xA2, b] (.ldxImm b) b ldx ∧
    RunsRead [0xA6, b] (.ldxZp b) (.zp b) ldx ∧
    RunsRead [0xB6, b] (.ldxZpY b) (.zpY b) ldx ∧
    RunsRead [0xAE, loByte w, hiByte w] (.ldxAbs w) (.abs w) ldx ∧
    RunsRead [0xBE, loByte w, hiByte w] (.ldxAbsY w) (.absY w) ldx ∧
    RunsImmediate [0xA0, b] (.ldyImm b) b ldy ∧
    RunsRead [0xA4, b] (.ldyZp b) (.zp b) ldy ∧
    RunsRead [0xB4, b] (.ldyZpX b) (.zpX b) ldy ∧
    RunsRead [0xAC, loByte w, hiByte w] (.ldyAbs w) (.abs w) ldy ∧
    RunsRead [0xBC, loByte w, hiByte w] (.ldyAbsX w) (.absX w) ldy

/-- R114, R115, R116: STA, STX and STY in every form; no flag and no register changes. -/
def Obligations.StoresRun : Prop :=
  ∀ (b : Byte) (w : Word),
    RunsStore [0x85, b] (.staZp b) (.zp b) (fun c => c.a) ∧
    RunsStore [0x95, b] (.staZpX b) (.zpX b) (fun c => c.a) ∧
    RunsStore [0x8D, loByte w, hiByte w] (.staAbs w) (.abs w) (fun c => c.a) ∧
    RunsStore [0x9D, loByte w, hiByte w] (.staAbsX w) (.absX w) (fun c => c.a) ∧
    RunsStore [0x99, loByte w, hiByte w] (.staAbsY w) (.absY w) (fun c => c.a) ∧
    RunsStore [0x81, b] (.staIndX b) (.indX b) (fun c => c.a) ∧
    RunsStore [0x91, b] (.staIndY b) (.indY b) (fun c => c.a) ∧
    RunsStore [0x86, b] (.stxZp b) (.zp b) (fun c => c.x) ∧
    RunsStore [0x96, b] (.stxZpY b) (.zpY b) (fun c => c.x) ∧
    RunsStore [0x8E, loByte w, hiByte w] (.stxAbs w) (.abs w) (fun c => c.x) ∧
    RunsStore [0x84, b] (.styZp b) (.zp b) (fun c => c.y) ∧
    RunsStore [0x94, b] (.styZpX b) (.zpX b) (fun c => c.y) ∧
    RunsStore [0x8C, loByte w, hiByte w] (.styAbs w) (.abs w) (fun c => c.y)

/-- R117 to R122, R142 to R145, R184 to R191: the transfers, the increments and decrements of registers, the flag instructions
and NOP, each in every state. -/
def Obligations.RegisterInstructionsRun : Prop :=
  RunsOnCpu [0xAA] .tax (fun c => ({ c with x := c.a } : Cpu).nz c.a) ∧
  RunsOnCpu [0xA8] .tay (fun c => ({ c with y := c.a } : Cpu).nz c.a) ∧
  RunsOnCpu [0x8A] .txa (fun c => ({ c with a := c.x } : Cpu).nz c.x) ∧
  RunsOnCpu [0x98] .tya (fun c => ({ c with a := c.y } : Cpu).nz c.y) ∧
  RunsOnCpu [0xBA] .tsx (fun c => ({ c with x := c.s } : Cpu).nz c.s) ∧
  RunsOnCpu [0x9A] .txs (fun c => { c with s := c.x }) ∧
  RunsOnCpu [0xE8] .inx (fun c => ({ c with x := c.x + 1 } : Cpu).nz (c.x + 1)) ∧
  RunsOnCpu [0xC8] .iny (fun c => ({ c with y := c.y + 1 } : Cpu).nz (c.y + 1)) ∧
  RunsOnCpu [0xCA] .dex (fun c => ({ c with x := c.x - 1 } : Cpu).nz (c.x - 1)) ∧
  RunsOnCpu [0x88] .dey (fun c => ({ c with y := c.y - 1 } : Cpu).nz (c.y - 1)) ∧
  RunsOnCpu [0x18] .clc (fun c => { c with c := false }) ∧
  RunsOnCpu [0x38] .sec (fun c => { c with c := true }) ∧
  RunsOnCpu [0x58] .cli (fun c => { c with i := false }) ∧
  RunsOnCpu [0x78] .sei (fun c => { c with i := true }) ∧
  RunsOnCpu [0xD8] .cld (fun c => { c with d := false }) ∧
  RunsOnCpu [0xF8] .sed (fun c => { c with d := true }) ∧
  RunsOnCpu [0xB8] .clv (fun c => { c with v := false }) ∧
  RunsOnCpu [0xEA] .nop (fun c => c)

/-- R130, R131: ADC and SBC in every form: the sum of A, the operand (or its complement) and C as integers, its carry, and the
same-sign overflow test; D has no part in it. -/
def Obligations.AddSubtractRun : Prop :=
  ∀ (b : Byte) (w : Word),
    let add : Cpu → Byte → Cpu := fun c m =>
      let t := c.a.toNat + m.toNat + (if c.c then 1 else 0)
      let r : Byte := BitVec.ofNat 8 t
      ({ c with c := decide (t > 0xFF), v := ((c.a ^^^ r) &&& (m ^^^ r)).getLsbD 7, a := r } : Cpu).nz r
    let sub : Cpu → Byte → Cpu := fun c m => add c (BitVec.ofNat 8 (255 - m.toNat))
    RunsImmediate [0x69, b] (.adcImm b) b add ∧
    RunsRead [0x65, b] (.adcZp b) (.zp b) add ∧
    RunsRead [0x75, b] (.adcZpX b) (.zpX b) add ∧
    RunsRead [0x6D, loByte w, hiByte w] (.adcAbs w) (.abs w) add ∧
    RunsRead [0x7D, loByte w, hiByte w] (.adcAbsX w) (.absX w) add ∧
    RunsRead [0x79, loByte w, hiByte w] (.adcAbsY w) (.absY w) add ∧
    RunsRead [0x61, b] (.adcIndX b) (.indX b) add ∧
    RunsRead [0x71, b] (.adcIndY b) (.indY b) add ∧
    RunsImmediate [0xE9, b] (.sbcImm b) b sub ∧
    RunsRead [0xE5, b] (.sbcZp b) (.zp b) sub ∧
    RunsRead [0xF5, b] (.sbcZpX b) (.zpX b) sub ∧
    RunsRead [0xED, loByte w, hiByte w] (.sbcAbs w) (.abs w) sub ∧
    RunsRead [0xFD, loByte w, hiByte w] (.sbcAbsX w) (.absX w) sub ∧
    RunsRead [0xF9, loByte w, hiByte w] (.sbcAbsY w) (.absY w) sub ∧
    RunsRead [0xE1, b] (.sbcIndX b) (.indX b) sub ∧
    RunsRead [0xF1, b] (.sbcIndY b) (.indY b) sub

/-- R132, R133, R134: AND, ORA and EOR in every form. -/
def Obligations.LogicRuns : Prop :=
  ∀ (b : Byte) (w : Word),
    let and : Cpu → Byte → Cpu := fun c m => ({ c with a := c.a &&& m } : Cpu).nz (c.a &&& m)
    let ora : Cpu → Byte → Cpu := fun c m => ({ c with a := c.a ||| m } : Cpu).nz (c.a ||| m)
    let eor : Cpu → Byte → Cpu := fun c m => ({ c with a := c.a ^^^ m } : Cpu).nz (c.a ^^^ m)
    RunsImmediate [0x29, b] (.andImm b) b and ∧
    RunsRead [0x25, b] (.andZp b) (.zp b) and ∧
    RunsRead [0x35, b] (.andZpX b) (.zpX b) and ∧
    RunsRead [0x2D, loByte w, hiByte w] (.andAbs w) (.abs w) and ∧
    RunsRead [0x3D, loByte w, hiByte w] (.andAbsX w) (.absX w) and ∧
    RunsRead [0x39, loByte w, hiByte w] (.andAbsY w) (.absY w) and ∧
    RunsRead [0x21, b] (.andIndX b) (.indX b) and ∧
    RunsRead [0x31, b] (.andIndY b) (.indY b) and ∧
    RunsImmediate [0x09, b] (.oraImm b) b ora ∧
    RunsRead [0x05, b] (.oraZp b) (.zp b) ora ∧
    RunsRead [0x15, b] (.oraZpX b) (.zpX b) ora ∧
    RunsRead [0x0D, loByte w, hiByte w] (.oraAbs w) (.abs w) ora ∧
    RunsRead [0x1D, loByte w, hiByte w] (.oraAbsX w) (.absX w) ora ∧
    RunsRead [0x19, loByte w, hiByte w] (.oraAbsY w) (.absY w) ora ∧
    RunsRead [0x01, b] (.oraIndX b) (.indX b) ora ∧
    RunsRead [0x11, b] (.oraIndY b) (.indY b) ora ∧
    RunsImmediate [0x49, b] (.eorImm b) b eor ∧
    RunsRead [0x45, b] (.eorZp b) (.zp b) eor ∧
    RunsRead [0x55, b] (.eorZpX b) (.zpX b) eor ∧
    RunsRead [0x4D, loByte w, hiByte w] (.eorAbs w) (.abs w) eor ∧
    RunsRead [0x5D, loByte w, hiByte w] (.eorAbsX w) (.absX w) eor ∧
    RunsRead [0x59, loByte w, hiByte w] (.eorAbsY w) (.absY w) eor ∧
    RunsRead [0x41, b] (.eorIndX b) (.indX b) eor ∧
    RunsRead [0x51, b] (.eorIndY b) (.indY b) eor

/-- R135 to R139: CMP, CPX, CPY and BIT in every form; no register changes, and a compare leaves V alone. -/
def Obligations.ComparesRun : Prop :=
  ∀ (b : Byte) (w : Word),
    let compare : (Cpu → Byte) → Cpu → Byte → Cpu := fun reg c m =>
      ({ c with c := decide (m.toNat ≤ (reg c).toNat) } : Cpu).nz (reg c - m)
    let cmp := compare fun c => c.a
    let cpx := compare fun c => c.x
    let cpy := compare fun c => c.y
    let bit : Cpu → Byte → Cpu := fun c m => { c with z := decide (c.a &&& m = 0), n := m.getLsbD 7, v := m.getLsbD 6 }
    RunsImmediate [0xC9, b] (.cmpImm b) b cmp ∧
    RunsRead [0xC5, b] (.cmpZp b) (.zp b) cmp ∧
    RunsRead [0xD5, b] (.cmpZpX b) (.zpX b) cmp ∧
    RunsRead [0xCD, loByte w, hiByte w] (.cmpAbs w) (.abs w) cmp ∧
    RunsRead [0xDD, loByte w, hiByte w] (.cmpAbsX w) (.absX w) cmp ∧
    RunsRead [0xD9, loByte w, hiByte w] (.cmpAbsY w) (.absY w) cmp ∧
    RunsRead [0xC1, b] (.cmpIndX b) (.indX b) cmp ∧
    RunsRead [0xD1, b] (.cmpIndY b) (.indY b) cmp ∧
    RunsImmediate [0xE0, b] (.cpxImm b) b cpx ∧
    RunsRead [0xE4, b] (.cpxZp b) (.zp b) cpx ∧
    RunsRead [0xEC, loByte w, hiByte w] (.cpxAbs w) (.abs w) cpx ∧
    RunsImmediate [0xC0, b] (.cpyImm b) b cpy ∧
    RunsRead [0xC4, b] (.cpyZp b) (.zp b) cpy ∧
    RunsRead [0xCC, loByte w, hiByte w] (.cpyAbs w) (.abs w) cpy ∧
    RunsRead [0x24, b] (.bitZp b) (.zp b) bit ∧
    RunsRead [0x2C, loByte w, hiByte w] (.bitAbs w) (.abs w) bit

/-- R140, R141: INC and DEC in every form; C and V are unchanged. -/
def Obligations.MemoryIncrementsRun : Prop :=
  ∀ (b : Byte) (w : Word),
    let inc : Cpu → Byte → Byte := fun _ m => m + 1
    let dec : Cpu → Byte → Byte := fun _ m => m - 1
    let keep : Cpu → Byte → Bool := fun c _ => c.c
    RunsModify [0xE6, b] (.incZp b) (.zp b) inc keep ∧
    RunsModify [0xF6, b] (.incZpX b) (.zpX b) inc keep ∧
    RunsModify [0xEE, loByte w, hiByte w] (.incAbs w) (.abs w) inc keep ∧
    RunsModify [0xFE, loByte w, hiByte w] (.incAbsX w) (.absX w) inc keep ∧
    RunsModify [0xC6, b] (.decZp b) (.zp b) dec keep ∧
    RunsModify [0xD6, b] (.decZpX b) (.zpX b) dec keep ∧
    RunsModify [0xCE, loByte w, hiByte w] (.decAbs w) (.abs w) dec keep ∧
    RunsModify [0xDE, loByte w, hiByte w] (.decAbsX w) (.absX w) dec keep

/-- R150 to R154: ASL, LSR, ROL and ROR of A and of memory in every form: the result, the bit shifted out in C, N and Z. -/
def Obligations.ShiftsRun : Prop :=
  ∀ (b : Byte) (w : Word),
    let top : Cpu → Byte → Bool := fun _ m => m.getLsbD 7
    let low : Cpu → Byte → Bool := fun _ m => m.getLsbD 0
    let asl : Cpu → Byte → Byte := fun _ m => BitVec.ofNat 8 (m.toNat * 2)
    let lsr : Cpu → Byte → Byte := fun _ m => BitVec.ofNat 8 (m.toNat / 2)
    let rol : Cpu → Byte → Byte := fun c m => BitVec.ofNat 8 (m.toNat * 2 + if c.c then 1 else 0)
    let ror : Cpu → Byte → Byte := fun c m => BitVec.ofNat 8 (m.toNat / 2 + if c.c then 128 else 0)
    let onA : (Cpu → Byte → Byte) → (Cpu → Byte → Bool) → Cpu → Cpu := fun r k c =>
      ({ c with a := r c c.a, c := k c c.a } : Cpu).nz (r c c.a)
    RunsOnCpu [0x0A] .aslAcc (onA asl top) ∧
    RunsModify [0x06, b] (.aslZp b) (.zp b) asl top ∧
    RunsModify [0x16, b] (.aslZpX b) (.zpX b) asl top ∧
    RunsModify [0x0E, loByte w, hiByte w] (.aslAbs w) (.abs w) asl top ∧
    RunsModify [0x1E, loByte w, hiByte w] (.aslAbsX w) (.absX w) asl top ∧
    RunsOnCpu [0x4A] .lsrAcc (onA lsr low) ∧
    RunsModify [0x46, b] (.lsrZp b) (.zp b) lsr low ∧
    RunsModify [0x56, b] (.lsrZpX b) (.zpX b) lsr low ∧
    RunsModify [0x4E, loByte w, hiByte w] (.lsrAbs w) (.abs w) lsr low ∧
    RunsModify [0x5E, loByte w, hiByte w] (.lsrAbsX w) (.absX w) lsr low ∧
    RunsOnCpu [0x2A] .rolAcc (onA rol top) ∧
    RunsModify [0x26, b] (.rolZp b) (.zp b) rol top ∧
    RunsModify [0x36, b] (.rolZpX b) (.zpX b) rol top ∧
    RunsModify [0x2E, loByte w, hiByte w] (.rolAbs w) (.abs w) rol top ∧
    RunsModify [0x3E, loByte w, hiByte w] (.rolAbsX w) (.absX w) rol top ∧
    RunsOnCpu [0x6A] .rorAcc (onA ror low) ∧
    RunsModify [0x66, b] (.rorZp b) (.zp b) ror low ∧
    RunsModify [0x76, b] (.rorZpX b) (.zpX b) ror low ∧
    RunsModify [0x6E, loByte w, hiByte w] (.rorAbs w) (.abs w) ror low ∧
    RunsModify [0x7E, loByte w, hiByte w] (.rorAbsX w) (.absX w) ror low

/-- R160 to R168, R102: the eight branches, taken and not taken. -/
def Obligations.BranchesRun : Prop :=
  ∀ b : Byte,
    RunsBranch [0x90, b] (.bccRel b) b (fun c => !c.c) ∧
    RunsBranch [0xB0, b] (.bcsRel b) b (fun c => c.c) ∧
    RunsBranch [0xF0, b] (.beqRel b) b (fun c => c.z) ∧
    RunsBranch [0xD0, b] (.bneRel b) b (fun c => !c.z) ∧
    RunsBranch [0x30, b] (.bmiRel b) b (fun c => c.n) ∧
    RunsBranch [0x10, b] (.bplRel b) b (fun c => !c.n) ∧
    RunsBranch [0x50, b] (.bvcRel b) b (fun c => !c.v) ∧
    RunsBranch [0x70, b] (.bvsRel b) b (fun c => c.v)

/-- R169, R99: JMP: the operand word, or the word read at it with the page wrap; the bus fault of either pointer read. -/
def Obligations.JumpsRun : Prop :=
  ∀ (s : State) (w high : Word), high = ((w &&& 0xFF00) ||| ((w + 1) &&& 0x00FF)) →
    encode (.jmpAbs w) = [0x4C, loByte w, hiByte w] ∧ encode (.jmpInd w) = [0x6C, loByte w, hiByte w] ∧
    exec (.jmpAbs w) s = .next (s.setPc w) ∧
    (regionOf w ≠ .unmapped → regionOf high ≠ .unmapped →
      ∃ lo t hi u, memRead w s = .ok lo t ∧ memRead high t = .ok hi u ∧ exec (.jmpInd w) s = .next (u.setPc (hi ++ lo))) ∧
    (regionOf w = .unmapped → exec (.jmpInd w) s = stopsWith (.busUnmappedRead w) s) ∧
    (regionOf w ≠ .unmapped → regionOf high = .unmapped →
      ∃ lo t, memRead w s = .ok lo t ∧ exec (.jmpInd w) s = stopsWith (.busUnmappedRead high) t)

/-- R170, R171, R173: JSR pushes the address of its own last byte, high byte first; RTS pulls an address and adds 1; RTI pulls
the flags and an address. All stack bytes lie at `0x0100 + S` in work RAM, S modulo 256. -/
def Obligations.CallsAndReturnsRun : Prop :=
  (∀ w, encode (.jsrAbs w) = [0x20, loByte w, hiByte w]) ∧ encode .rts = [0x60] ∧ encode .rti = [0x40] ∧
  ∀ (s : State) (w : Word),
    let place : Byte → Nat := fun sp => 0x100 + sp.toNat
    let pulled : Nat → Byte := fun k => s.ram.read (place (s.cpu.s + BitVec.ofNat 8 k))
    exec (.jsrAbs w) s = .next { s with
      ram := (s.ram.write (place s.cpu.s) (hiByte (s.cpu.pc - 1))).write (place (s.cpu.s - 1)) (loByte (s.cpu.pc - 1))
      cpu := { s.cpu with s := s.cpu.s - 2, pc := w } } ∧
    exec .rts s = .next (s.withCpu { s.cpu with s := s.cpu.s + 2, pc := (pulled 2 ++ pulled 1 : Word) + 1 }) ∧
    exec .rti s = .next (s.withCpu { s.cpu with
      n := (pulled 1).getLsbD 7, v := (pulled 1).getLsbD 6, d := (pulled 1).getLsbD 3, i := (pulled 1).getLsbD 2,
      z := (pulled 1).getLsbD 1, c := (pulled 1).getLsbD 0, s := s.cpu.s + 3, pc := (pulled 3 ++ pulled 2 : Word) })

/-- R172, R386, R387: BRK skips the padding byte, sets the break state and offers IRQBRK to the latch; with no higher kind in
it, the interrupt check then enters through 0xFFFE whatever I is: it pushes PC and the status byte with bit 4 set, sets I,
clears the break state, and owes no cycles. -/
def Obligations.BrkTakesInterrupt : Prop :=
  encode .brk = [0x00] ∧
  (∀ s, exec .brk s = .next { s with cpu := { s.cpu with pc := s.cpu.pc + 1, brk := true }, latch := s.latch.after .irqBrk }) ∧
  ∀ s t, s.latch = .none ∨ s.latch = .irqBrk → exec .brk s = .next t →
    let ret := s.cpu.pc + 1
    resolveInterrupt t = { s with
      latch := .none
      ram := ((s.ram.write (0x100 + s.cpu.s.toNat) (hiByte ret)).write (0x100 + (s.cpu.s - 1).toNat) (loByte ret)).write
        (0x100 + (s.cpu.s - 2).toNat) (s.cpu.status true)
      cpu := { s.cpu with s := s.cpu.s - 3, i := true, brk := false, pc := prgRead s 0xFFFF ++ prgRead s 0xFFFE } }

/-- R13, R180 to R183: a push is a bus write at `0x0100 | S` and a pull a bus read there, and PHA, PHP, PLA and PLP in every
state. -/
def Obligations.StackInstructionsRun : Prop :=
  encode .pha = [0x48] ∧ encode .php = [0x08] ∧ encode .pla = [0x68] ∧ encode .plp = [0x28] ∧
  ∀ s : State,
    let below : Word := 0x0100 ||| s.cpu.s.zeroExtend 16
    let above : Word := 0x0100 ||| (s.cpu.s + 1).zeroExtend 16
    (∃ t, memWrite below s.cpu.a s = .ok () t ∧ exec .pha s = .next (t.withCpu { s.cpu with s := s.cpu.s - 1 })) ∧
    (∃ t, memWrite below (s.cpu.status true) s = .ok () t ∧
      exec .php s = .next (t.withCpu { s.cpu with s := s.cpu.s - 1 })) ∧
    (∃ m, memRead above s = .ok m s ∧
      exec .pla s = .next (s.withCpu (({ s.cpu with s := s.cpu.s + 1, a := m } : Cpu).nz m)) ∧
      exec .plp s = .next (s.withCpu { s.cpu with
        s := s.cpu.s + 1, n := m.getLsbD 7, v := m.getLsbD 6, d := m.getLsbD 3, i := m.getLsbD 2, z := m.getLsbD 1,
        c := m.getLsbD 0 }))

/-- R24, R25: the bits of a composed status byte, and what loading a byte into the flags does. -/
def Obligations.StatusByte : Prop :=
  (∀ (c : Cpu) (b : Bool),
    (c.status b).getLsbD 7 = c.n ∧ (c.status b).getLsbD 6 = c.v ∧ (c.status b).getLsbD 5 = true ∧
    (c.status b).getLsbD 4 = b ∧ (c.status b).getLsbD 3 = c.d ∧ (c.status b).getLsbD 2 = c.i ∧
    (c.status b).getLsbD 1 = c.z ∧ (c.status b).getLsbD 0 = c.c) ∧
  (∀ (c : Cpu) (m : Byte),
    c.setStatus m = { c with n := m.getLsbD 7, v := m.getLsbD 6, d := m.getLsbD 3, i := m.getLsbD 2, z := m.getLsbD 1,
                             c := m.getLsbD 0 }) ∧
  (∀ (c d : Cpu) (b : Bool) (f : Flag), (c.setStatus (d.status b)).flag f = d.flag f)

/-- R146, R130, R131: C and V of ADC and SBC are the unsigned and the signed overflow of the exact result, and A is that result
modulo 256, whatever D is. -/
def Obligations.SignedAndUnsignedOverflow : Prop :=
  (∀ (s t : State) (m : Byte) (k : Int), k = (if s.cpu.c then 1 else 0) → exec (.adcImm m) s = .next t →
    (t.cpu.c = true ↔ (s.cpu.a.toNat : Int) + m.toNat + k > 255) ∧
    (t.cpu.v = true ↔ s.cpu.a.toInt + m.toInt + k < -128 ∨ s.cpu.a.toInt + m.toInt + k > 127) ∧
    (t.cpu.a.toNat : Int) = ((s.cpu.a.toNat : Int) + m.toNat + k) % 256) ∧
  (∀ (s t : State) (m : Byte) (k : Int), k = (if s.cpu.c then 0 else 1) → exec (.sbcImm m) s = .next t →
    (t.cpu.c = true ↔ (s.cpu.a.toNat : Int) ≥ m.toNat + k) ∧
    (t.cpu.v = true ↔ s.cpu.a.toInt - m.toInt - k < -128 ∨ s.cpu.a.toInt - m.toInt - k > 127) ∧
    (t.cpu.a.toNat : Int) = ((s.cpu.a.toNat : Int) - m.toNat - k) % 256)

/-- R153, R154: ROL and ROR are nine-bit rotations: nine of one kind restore A and C, and each undoes the other. -/
def Obligations.NineRotationsRestore : Prop :=
  ∀ s : State,
    let run : Instr → State → State := fun i u => match exec i u with | .next t => t | .fault _ => u | .refused _ => u
    (Nat.repeat (run .rolAcc) 9 s).cpu.a = s.cpu.a ∧ (Nat.repeat (run .rolAcc) 9 s).cpu.c = s.cpu.c ∧
    (Nat.repeat (run .rorAcc) 9 s).cpu.a = s.cpu.a ∧ (Nat.repeat (run .rorAcc) 9 s).cpu.c = s.cpu.c ∧
    (run .rorAcc (run .rolAcc s)).cpu.a = s.cpu.a ∧ (run .rorAcc (run .rolAcc s)).cpu.c = s.cpu.c ∧
    (run .rolAcc (run .rorAcc s)).cpu.a = s.cpu.a ∧ (run .rolAcc (run .rorAcc s)).cpu.c = s.cpu.c

/-- R171, R182, R183, R388: the round trips of the stack, at every value of S: PHA then PLA restores A; PHP then PLP the six
flags; JSR then RTS comes back behind the JSR; an interrupt entry then RTI restores PC, the flags and S. -/
def Obligations.StackRoundTrips : Prop :=
  (∀ s t u, exec .pha s = .next t → exec .pla t = .next u → u.cpu = s.cpu.nz s.cpu.a) ∧
  (∀ s t u, exec .php s = .next t → exec .plp t = .next u → u.cpu = s.cpu) ∧
  (∀ s t u w, exec (.jsrAbs w) s = .next t → exec .rts t = .next u → u.cpu = s.cpu) ∧
  (∀ s u vec n, exec .rti (takeInterrupt vec n s) = .next u → u.cpu = { s.cpu with brk := false })

/-! ## Frames -/

/-- R20, R21, R26, R27: an instruction leaves every register and flag alone that the tables of R20 and R26 and its own rule do
not name it a writer of; PC moves only for control transfers, and only BRK touches the break state. -/
def Obligations.CpuFrame : Prop :=
  ∀ (i : Instr) (s t : State), exec i s = .next t →
    (∀ f, mnemonicOf i ∉ flagWriters f → t.cpu.flag f = s.cpu.flag f) ∧
    (mnemonicOf i ∉ writersOfA → ¬ onAccumulator i → t.cpu.a = s.cpu.a) ∧
    (mnemonicOf i ∉ writersOfX → t.cpu.x = s.cpu.x) ∧
    (mnemonicOf i ∉ writersOfY → t.cpu.y = s.cpu.y) ∧
    (mnemonicOf i ∉ writersOfS → t.cpu.s = s.cpu.s) ∧
    (mnemonicOf i ∉ writersOfPc → t.cpu.pc = s.cpu.pc) ∧
    (i ≠ .brk → t.cpu.brk = s.cpu.brk)

/-- R78, R96: an instruction that writes no operand in memory and pushes nothing changes no byte of memory, no memory of the
PPU, nothing of the cartridge, the mapper and the clock, and of the devices at most what a read does: VBL, w, the inhibit, the
read buffer and v of the PPU, the APU's frame flag, the controllers' shift registers, the draws, and a pending NMI. -/
def Obligations.NonStoringFrame : Prop :=
  ∀ (i : Instr) (s t : State), destinationOf i = none → ¬ pushes i → exec i s = .next t →
    (∀ a, t.byteAt a = s.byteAt a) ∧
    t = { s with
      cpu := t.cpu
      ppu := { s.ppu with vbl := t.ppu.vbl, w := t.ppu.w, nmiInhibit := t.ppu.nmiInhibit, buffer := t.ppu.buffer,
                          v := t.ppu.v }
      apu := { s.apu with frame := { s.apu.frame with frameIrq := t.apu.frame.frameIrq } }
      latch := t.latch
      pads := { s.pads with pad0 := { s.pads.pad0 with shift := t.pads.pad0.shift },
                            pad1 := { s.pads.pad1 with shift := t.pads.pad1.shift } }
      draws := t.draws } ∧
    (i ≠ .brk → t.latch = s.latch ∨ (s.latch = .nmi ∧ t.latch = .none))

/-- R21, R63, R64, R96, R114, R150, R170, R180, R181: a store or a read-modify-write changes no byte of memory but the one its
effective address reaches; a write to the PRG range moves windows alone, so every byte outside that range stays. ROM, the
accumulators of the clock, the buttons, the batch, the fault and the output stay in every case. PHA and PHP change no byte but the
one at `0x0100 | S`, JSR none but that and the one below it (S modulo 256), and nothing of the state but the CPU and work RAM. -/
def Obligations.StoringFrame : Prop :=
  (∀ (i : Instr) (m : Mode) (s t : State), destinationOf i = some m → exec i s = .next t →
    (∀ a, regionOf (effectiveAddress m s) ≠ .prg ∨ regionOf a ≠ .prg → ¬ samePlace (effectiveAddress m s) a →
      t.byteAt a = s.byteAt a) ∧
    t = { s with
      cpu := t.cpu, ppu := t.ppu, apu := t.apu, cart := { s.cart with chr := t.cart.chr }, mapper := t.mapper, win := t.win,
      sram := t.sram, ram := t.ram, latch := t.latch,
      clock := { s.clock with deferred := t.clock.deferred, dmaCycles := t.clock.dmaCycles }
      pads := { pad0 := { s.pads.pad0 with shift := t.pads.pad0.shift },
                pad1 := { s.pads.pad1 with shift := t.pads.pad1.shift }, strobe := t.pads.strobe }
      draws := t.draws }) ∧
  (∀ (i : Instr) (s t : State), pushes i → exec i s = .next t →
    (∀ a, ¬ samePlace (stackAddress s.cpu.s) a → (mnemonicOf i = "JSR" → ¬ samePlace (stackAddress (s.cpu.s - 1)) a) →
      t.byteAt a = s.byteAt a) ∧
    t = { s with cpu := t.cpu, ram := t.ram })

/-! ## The bus and memory -/

/-- R62, R64 to R67, R69, R201, R209: a bus read at every address: the byte or the register that answers, the fault where none
does, the state unchanged but for a register's own effects. OAMDATA gives the byte at oamaddr and changes nothing; the
write-only registers of the PPU and of 0x4000-0x4014 give an open-bus byte. The statements PpuStatusRead, PpuDataPort,
ApuEnablesAndStatus and ControllerReads say what the other registers give. -/
def Obligations.BusReads : Prop :=
  ∀ (a : Word) (s : State),
    (a.toNat ≤ 0x1FFF → memRead a s = .ok (s.ram.read (a.toNat % 0x800)) s) ∧
    (0x2000 ≤ a.toNat → a.toNat ≤ 0x3FFF →
      memRead a s = .ok (ppuRegRead (a.toNat % 8) s).1 (ppuRegRead (a.toNat % 8) s).2 ∧
      (a.toNat % 8 = 4 → memRead a s = .ok (s.ppu.oam.read s.ppu.oamaddr.toNat) s) ∧
      (a.toNat % 8 ≠ 2 → a.toNat % 8 ≠ 4 → a.toNat % 8 ≠ 7 →
        memRead a s = .ok (Config.openBus s.draws) { s with draws := s.draws + 1 })) ∧
    (0x4000 ≤ a.toNat → a.toNat ≤ 0x4017 →
      memRead a s = .ok (ioRead (a.toNat - 0x4000) s).1 (ioRead (a.toNat - 0x4000) s).2 ∧
      (a.toNat ≤ 0x4014 → memRead a s = .ok (Config.openBus s.draws) { s with draws := s.draws + 1 })) ∧
    (0x4018 ≤ a.toNat → a.toNat ≤ 0x5FFF →
      memRead a s = .stop (.fatal (.busUnmappedRead a) { s with fault := some (.busUnmappedRead a) })) ∧
    (0x6000 ≤ a.toNat → a.toNat ≤ 0x7FFF → memRead a s = .ok (s.sram.read (a.toNat - 0x6000)) s) ∧
    (0x8000 ≤ a.toNat → ∃ v, memRead a s = .ok v s ∧ prgRead s a = v ∧
      ∀ k page, s.win.prg[(a.toNat - 0x8000) / 0x2000]? = some k → s.cart.prg[k]? = some page →
        v = page.read (a.toNat % 0x2000))

/-- R63, R67, R70: a bus write at every address: the byte it changes, the register or the mapper it reaches, the fault where
nothing answers. -/
def Obligations.BusWrites : Prop :=
  ∀ (a : Word) (v : Byte) (s : State),
    (a.toNat ≤ 0x1FFF → memWrite a v s = .ok () { s with ram := s.ram.write (a.toNat % 0x800) v }) ∧
    (0x2000 ≤ a.toNat → a.toNat ≤ 0x3FFF → memWrite a v s = ppuRegWrite (a.toNat % 8) v s) ∧
    (0x4000 ≤ a.toNat → a.toNat ≤ 0x4017 → memWrite a v s = ioWrite (a.toNat - 0x4000) v s) ∧
    (0x4018 ≤ a.toNat → a.toNat ≤ 0x5FFF →
      memWrite a v s = .stop (.fatal (.busUnmappedWrite a v) { s with fault := some (.busUnmappedWrite a v) })) ∧
    (0x6000 ≤ a.toNat → a.toNat ≤ 0x7FFF →
      memWrite a v s = .ok () { s with sram := s.sram.write (a.toNat - 0x6000) v }) ∧
    (0x8000 ≤ a.toNat → memWrite a v s = mapperWrite a v s)

/-- R64, R68: a write to work RAM or SRAM goes on, every address that reaches the same byte then reads what was written, every
other address reads as before, and the four mirrors of a work RAM byte read alike. -/
def Obligations.ReadAfterWrite : Prop :=
  (∀ (a : Word) (v : Byte) (s : State), regionOf a = .workRam ∨ regionOf a = .sram →
    ∃ t, memWrite a v s = .ok () t ∧
      (∀ b, samePlace a b → memRead b t = .ok v t) ∧ (∀ b, ¬ samePlace a b → t.byteAt b = s.byteAt b)) ∧
  (∀ (a b : Word) (s : State), a.toNat ≤ 0x1FFF → b.toNat ≤ 0x1FFF → a.toNat % 0x800 = b.toNat % 0x800 →
    samePlace a b ∧ s.byteAt a = s.byteAt b)

/-- R47, R70, R329, R397: no step changes a byte of PRG ROM, a byte of CHR ROM, the number of pages, or the header's bits. -/
def Obligations.RomNeverChanges : Prop :=
  ∀ s t, step s = .next t →
    t.cart.prg = s.cart.prg ∧ (s.cart.chrIsRam = false → t.cart.chr = s.cart.chr) ∧
    t.cart.chr.length = s.cart.chr.length ∧ t.cart.chrIsRam = s.cart.chrIsRam ∧
    t.cart.hdrMirroring = s.cart.hdrMirroring ∧ t.cart.sramFlag = s.cart.sramFlag ∧ t.mapper.number = s.mapper.number

/-! ## Interrupts -/

/-- R384, R385: what offering each kind to the latch does, and that it does nothing else. -/
def Obligations.LatchRules : Prop :=
  ∀ s : State,
    raiseInterrupt .none s = s ∧
    raiseInterrupt .cancelNmi s = (if s.latch = .nmi then { s with latch := .none } else s) ∧
    raiseInterrupt .irqBrk s = (if s.latch = .none then { s with latch := .irqBrk } else s) ∧
    raiseInterrupt .nmi s = (if s.latch = .none ∨ s.latch = .irqBrk then { s with latch := .nmi } else s) ∧
    raiseInterrupt .reset s = { s with latch := .reset }

/-- R386, R387, R393, R414: the interrupt check for every content of the latch: nothing; a masked IRQ stays; an NMI, an IRQ or a
BRK enters through its vector, pushing PC and the status byte; the Reset entry pushes nothing. -/
def Obligations.InterruptCheck : Prop :=
  ∀ s : State,
    let entry : Word → Nat → State := fun vec cycles => { s with
      latch := .none
      ram := ((s.ram.write (0x100 + s.cpu.s.toNat) (hiByte s.cpu.pc)).write (0x100 + (s.cpu.s - 1).toNat)
        (loByte s.cpu.pc)).write (0x100 + (s.cpu.s - 2).toNat) (s.cpu.status s.cpu.brk)
      cpu := { s.cpu with s := s.cpu.s - 3, i := true, brk := false, pc := prgRead s (vec + 1) ++ prgRead s vec }
      clock := { s.clock with deferred := s.clock.deferred + cycles } }
    (s.latch = .none → resolveInterrupt s = s) ∧
    (s.latch = .irqBrk → s.cpu.i = true → s.cpu.brk = false → resolveInterrupt s = s) ∧
    (s.latch = .irqBrk → s.cpu.i = false → s.cpu.brk = false → resolveInterrupt s = entry 0xFFFE 7) ∧
    (s.latch = .irqBrk → s.cpu.brk = true → resolveInterrupt s = entry 0xFFFE 0) ∧
    (s.latch = .nmi → resolveInterrupt s = entry 0xFFFA 7) ∧
    (s.latch = .reset → resolveInterrupt s = { s with
      latch := .none
      cpu := { s.cpu with s := s.cpu.s - 3, i := true, pc := prgRead s 0xFFFD ++ prgRead s 0xFFFC }
      clock := { s.clock with deferred := s.clock.deferred + 7 } })

/-- R353, R356, R395: what holds between steps, a step keeps: the latch is empty or holds a masked IRQ and no break is pending
(where the DMC reader's addresses are in the range a step keeps them in, so that its reads reach no register); no PPU tick and at
most half an APU tick is owed; the batch is shorter than a full one. -/
def Obligations.BetweenStepsInvariantsKept : Prop :=
  ∀ s t, step s = .next t → (DmcInv s → LatchInv s → LatchInv t) ∧ (ClockInv s → ClockInv t) ∧ (BatchInv s → BatchInv t)

/-! ## The picture unit -/

/-- R205: a read of 0x2002 or a mirror of it: the three status bits over five open-bus bits; VBL and w are cleared; at
(241, 0) the inhibit is set, at (241, 1) a pending NMI is taken back. -/
def Obligations.PpuStatusRead : Prop :=
  ∀ (a : Word) (s : State), 0x2000 ≤ a.toNat → a.toNat ≤ 0x3FFF → a.toNat % 8 = 2 →
    ∃ r, memRead a s = .ok r { s with
        ppu := { s.ppu with
          vbl := false, w := false
          nmiInhibit := if s.ppu.scanline = 241 ∧ s.ppu.pixel = 0 then true else s.ppu.nmiInhibit }
        latch := if s.ppu.scanline = 241 ∧ s.ppu.pixel = 1 ∧ s.latch = .nmi then .none else s.latch
        draws := s.draws + 1 } ∧
      r.getLsbD 7 = s.ppu.vbl ∧ r.getLsbD 6 = s.ppu.s0 ∧ r.getLsbD 5 = s.ppu.ovf ∧
      r.extractLsb 4 0 = (Config.openBus s.draws).extractLsb 4 0

/-- R204, R206, R207, R208, R210, R212: a write to each PPU register but 0x2007, mirrors included, and that a write to 0x2002
has no effect. -/
def Obligations.PpuRegisterWrites : Prop :=
  ∀ (a : Word) (v : Byte) (s : State), 0x2000 ≤ a.toNat → a.toNat ≤ 0x3FFF →
    (a.toNat % 8 = 0 → ∃ t : BitVec 15, memWrite a v s = .ok () (s.withPpu { s.ppu with ctrl := v, t := t }) ∧
      t.extractLsb 14 12 = s.ppu.t.extractLsb 14 12 ∧ t.extractLsb 11 10 = v.extractLsb 1 0 ∧
      t.extractLsb 9 0 = s.ppu.t.extractLsb 9 0) ∧
    (a.toNat % 8 = 1 → memWrite a v s = .ok () (s.withPpu { s.ppu with mask := v })) ∧
    (a.toNat % 8 = 2 → memWrite a v s = .ok () s) ∧
    (a.toNat % 8 = 3 → memWrite a v s = .ok () (s.withPpu { s.ppu with oamaddr := v })) ∧
    (a.toNat % 8 = 4 → memWrite a v s = .ok () (s.withPpu { s.ppu with
      oam := s.ppu.oam.write s.ppu.oamaddr.toNat v, oamaddr := s.ppu.oamaddr + 1 })) ∧
    (a.toNat % 8 = 5 → s.ppu.w = false → ∃ t : BitVec 15,
      memWrite a v s = .ok () (s.withPpu { s.ppu with t := t, x := v.extractLsb 2 0, w := true }) ∧
      t.extractLsb 14 5 = s.ppu.t.extractLsb 14 5 ∧ t.extractLsb 4 0 = v.extractLsb 7 3) ∧
    (a.toNat % 8 = 5 → s.ppu.w = true → ∃ t : BitVec 15,
      memWrite a v s = .ok () (s.withPpu { s.ppu with t := t, w := false }) ∧
      t.extractLsb 14 12 = v.extractLsb 2 0 ∧ t.extractLsb 11 10 = s.ppu.t.extractLsb 11 10 ∧
      t.extractLsb 9 5 = v.extractLsb 7 3 ∧ t.extractLsb 4 0 = s.ppu.t.extractLsb 4 0) ∧
    (a.toNat % 8 = 6 → s.ppu.w = false → ∃ t : BitVec 15,
      memWrite a v s = .ok () (s.withPpu { s.ppu with t := t, w := true }) ∧
      t.getLsbD 14 = false ∧ t.extractLsb 13 8 = v.extractLsb 5 0 ∧ t.extractLsb 7 0 = s.ppu.t.extractLsb 7 0) ∧
    (a.toNat % 8 = 6 → s.ppu.w = true → ∃ t : BitVec 15,
      memWrite a v s = .ok () (s.withPpu { s.ppu with t := t, v := t, w := false }) ∧
      t.extractLsb 14 8 = s.ppu.t.extractLsb 14 8 ∧ t.extractLsb 7 0 = v)

/-- R72, R73, R74, R211, R213, R214, R325: the mapper's mirroring mode, the nametable of each mode, the palette's mirror and the
CHR byte of an address; then a read and a write of 0x2007, mirrors included, below the palette and in it: the buffered read, the
palette's bypass, the byte written, the CHR ROM fault, and v's step of 1 or 32. -/
def Obligations.PpuDataPort : Prop :=
  (∀ s : State,
    (s.mapper = .mapper0 ∨ (∃ b, s.mapper = .mapper2 b) ∨ (∃ b, s.mapper = .mapper3 b) →
      s.mirroring = if s.cart.hdrMirroring then .vertical else .horizontal) ∧
    (∀ r, s.mapper = .mapper1 r → s.mirroring =
      if r.control.toNat % 4 = 0 then .singleLower else if r.control.toNat % 4 = 1 then .singleUpper
      else if r.control.toNat % 4 = 2 then .vertical else .horizontal) ∧
    (∀ r, s.mapper = .mapper4 r → s.mirroring = if r.mirror then .horizontal else .vertical)) ∧
  ([0, 1, 2, 3].map (mirrorOf .horizontal) = [0, 0, 1, 1] ∧ [0, 1, 2, 3].map (mirrorOf .vertical) = [0, 1, 0, 1] ∧
    [0, 1, 2, 3].map (mirrorOf .singleLower) = [0, 0, 0, 0] ∧ [0, 1, 2, 3].map (mirrorOf .singleUpper) = [1, 1, 1, 1]) ∧
  (∀ a, palIndex a = a % 32 - if a % 32 ∈ [0x10, 0x14, 0x18, 0x1C] then 0x10 else 0) ∧
  (∀ (s : State) (a k : Nat) (page : Memory), a < 0x2000 → s.win.chr[a / 0x400]? = some k → s.cart.chr[k]? = some page →
    readChr s a = page.read (a % 0x400)) ∧
  ∀ (a : Word) (x : Byte) (s : State) (p : Nat) (v : BitVec 15), 0x2000 ≤ a.toNat → a.toNat ≤ 0x3FFF → a.toNat % 8 = 7 →
    p = s.ppu.v.toNat % 0x4000 → v = s.ppu.v + (if s.ppu.ctrl.getLsbD 2 then 32 else 1) →
    (p < 0x2000 → memRead a s = .ok s.ppu.buffer (s.withPpu { s.ppu with buffer := readChr s p, v := v })) ∧
    (0x2000 ≤ p → p < 0x3F00 → memRead a s = .ok s.ppu.buffer (s.withPpu { s.ppu with
      buffer := s.ppu.ciram.read (mirrorOf s.mirroring (p % 0x1000 / 0x400) * 0x400 + p % 0x400), v := v })) ∧
    (0x3F00 ≤ p →
      memRead a s = .ok ((Config.openBus s.draws).extractLsb 1 0 ++ Table.get 0 s.ppu.pal (palIndex p))
        { s with
          ppu := { s.ppu with
            buffer := s.ppu.ciram.read (mirrorOf s.mirroring ((p - 0x1000) % 0x1000 / 0x400) * 0x400 + p % 0x400), v := v }
          draws := s.draws + 1 }) ∧
    (p < 0x2000 → s.cart.chrIsRam = true → ∃ chr, memWrite a x s = .ok () { s with
        cart := { s.cart with chr := chr }, ppu := { s.ppu with v := v } } ∧
      ∀ k page, s.win.chr[p / 0x400]? = some k → s.cart.chr[k]? = some page →
        chr = s.cart.chr.set k (page.write (p % 0x400) x)) ∧
    (p < 0x2000 → s.cart.chrIsRam = false → ∃ q : PpuAddr, q.toNat = p ∧
      memWrite a x s = .stop (.fatal (.chrRomWrite q x) { s with fault := some (.chrRomWrite q x) })) ∧
    (0x2000 ≤ p → p < 0x3F00 → memWrite a x s = .ok () (s.withPpu { s.ppu with
      ciram := s.ppu.ciram.write (mirrorOf s.mirroring (p % 0x1000 / 0x400) * 0x400 + p % 0x400) x, v := v })) ∧
    (0x3F00 ≤ p → memWrite a x s = .ok () (s.withPpu { s.ppu with
      pal := Table.set 0 s.ppu.pal (palIndex p) (BitVec.ofNat 6 x.toNat), v := v }))

/-- R215, R227: a PPU tick's advance of the position, with the skip of pixel 337 and the flip of the parity, and that a tick
elsewhere than at a visible pixel, (241, 0) and (-1, 0) does nothing but advance. -/
def Obligations.TickAdvances : Prop :=
  ∀ s : State, -1 ≤ s.ppu.scanline → s.ppu.scanline ≤ 260 → s.ppu.pixel ≤ 340 →
    ∃ line pixel odd,
      (line, pixel, odd) =
        (if s.ppu.scanline = -1 ∧ s.ppu.pixel = 336 ∧ s.ppu.odd = true ∧ s.ppu.mask.getLsbD 3 = true then
          ((-1 : Int), 338, true)
        else if s.ppu.pixel < 340 then (s.ppu.scanline, s.ppu.pixel + 1, s.ppu.odd)
        else if s.ppu.scanline < 260 then (s.ppu.scanline + 1, 0, s.ppu.odd)
        else (-1, 0, !s.ppu.odd)) ∧
      (ppuTick s).ppu.scanline = line ∧ (ppuTick s).ppu.pixel = pixel ∧ (ppuTick s).ppu.odd = odd ∧
      (¬ (0 ≤ s.ppu.scanline ∧ s.ppu.scanline ≤ 239 ∧ s.ppu.pixel ≤ 255) → ¬ (s.ppu.scanline = 241 ∧ s.ppu.pixel = 0) →
        ¬ (s.ppu.scanline = -1 ∧ s.ppu.pixel = 0) →
        ppuTick s = s.withPpu { s.ppu with scanline := line, pixel := pixel, odd := odd })

/-- R216, R217: the tick at (241, 0) sets VBL and raises NMI unless inhibited, ends the inhibit and delivers the frame; the tick
at (-1, 0) clears the status bits and recomputes the sprite buffer. -/
def Obligations.VBlankEvents : Prop :=
  ∀ s : State,
    (s.ppu.scanline = 241 → s.ppu.pixel = 0 → ppuTick s = { s with
      ppu := { s.ppu with pixel := 1, nmiInhibit := false, vbl := if s.ppu.nmiInhibit = false then true else s.ppu.vbl }
      latch := if s.ppu.nmiInhibit = false ∧ s.ppu.ctrl.getLsbD 7 = true ∧ s.latch ≠ .reset then .nmi else s.latch
      out := { s.out with frames := s.out.frames ++ [{ fb := s.ppu.fb, mask := s.ppu.mask }] } }) ∧
    (s.ppu.scanline = -1 → s.ppu.pixel = 0 → ppuTick s = s.withPpu { s.ppu with
      pixel := 1, vbl := false, s0 := false, ovf := false, spr := computeSprites s })

/-- R218, R219, R225, R226: how a tick at a visible pixel moves v, field by field: the reload at pixel 0, the coarse-X increment
at the end of a tile, the Y increment after pixel 255, with their wraps; and the attribute cache's recompute. -/
def Obligations.ScrollRules : Prop :=
  (∀ v : BitVec 15,
    fineY (incCoarseX v) = fineY v ∧ ntY (incCoarseX v) = ntY v ∧ coarseY (incCoarseX v) = coarseY v ∧
    (coarseX v = 31 → coarseX (incCoarseX v) = 0 ∧ ntX (incCoarseX v) = ntX v + 1) ∧
    (coarseX v ≠ 31 → coarseX (incCoarseX v) = coarseX v + 1 ∧ ntX (incCoarseX v) = ntX v)) ∧
  (∀ v : BitVec 15,
    fineY (incY v) = fineY v + 1 ∧ ntX (incY v) = ntX v ∧ coarseX (incY v) = coarseX v ∧
    (fineY v ≠ 7 → coarseY (incY v) = coarseY v ∧ ntY (incY v) = ntY v) ∧
    (fineY v = 7 → coarseY v = 29 → coarseY (incY v) = 0 ∧ ntY (incY v) = ntY v + 1) ∧
    (fineY v = 7 → coarseY v ≠ 29 → coarseY (incY v) = coarseY v + 1 ∧ ntY (incY v) = ntY v)) ∧
  (∀ (s : State) (y p : Nat) (v0 v1 : BitVec 15), s.ppu.scanline = y → y ≤ 239 → s.ppu.pixel = p → p ≤ 255 →
    RendersFrom s.ppu y p v0 →
    v1 = (if s.ppu.mask.getLsbD 3 = true ∧ (s.ppu.x.toNat + p) % 8 = 7 then incCoarseX v0 else v0) →
    (ppuTick s).ppu.v = (if s.ppu.mask.getLsbD 3 = true ∧ p = 255 then incY v1 else v1) ∧
    (ppuTick s).ppu.t = s.ppu.t ∧ (ppuTick s).ppu.x = s.ppu.x ∧ (ppuTick s).ppu.w = s.ppu.w ∧
    (p = 0 → y = 0 → s.ppu.mask.getLsbD 3 = true ∨ s.ppu.mask.getLsbD 4 = true →
      ∀ n row col, n < 2 → row < 32 → col < 32 →
        (Table.get 0 (ppuTick s).ppu.attr (n * 1024 + row * 32 + col)).toNat =
          (s.ppu.ciram.read (n * 0x400 + 0x3C0 + row / 4 * 8 + col / 4)).toNat / 2 ^ (row / 2 % 2 * 4 + col / 2 % 2 * 2) % 4) ∧
    (p ≠ 0 ∨ y ≠ 0 ∨ (s.ppu.mask.getLsbD 3 = false ∧ s.ppu.mask.getLsbD 4 = false) →
      (ppuTick s).ppu.attr = s.ppu.attr))

/-- R221, R222, R223, R224, R227: the pixel a tick draws at every visible place: the background pixel of its tile, pattern and
attribute, from the address reloaded at pixel 0 and the attribute cache of that tick; the sprite pixel; the colour of the
multiplexer's choice at its own place and at no other; the sprite-zero hit; nothing else but v, the attribute cache and the
advance, and nothing outside the PPU. With rendering disabled it is the backdrop, and nothing else but the advance. -/
def Obligations.VisiblePixel : Prop :=
  (∀ (s : State) (y p : Nat) (v0 : BitVec 15), s.ppu.scanline = y → y ≤ 239 → s.ppu.pixel = p → p ≤ 255 →
    RendersFrom s.ppu y p v0 →
    let table := mirrorOf s.mirroring (v0.toNat / 0x400 % 4)
    let tile := s.ppu.ciram.read (table * 0x400 + v0.toNat % 0x400)
    let addr := (if s.ppu.ctrl.getLsbD 4 then 0x1000 else 0) + tile.toNat * 16 + (fineY v0).toNat
    let bit := 7 - (s.ppu.x.toNat + p) % 8
    let pattern := (if (readChr s (addr + 8)).getLsbD bit then 2 else 0) + (if (readChr s addr).getLsbD bit then 1 else 0)
    let bg : Nat := if s.ppu.mask.getLsbD 3 = true ∧ (8 ≤ p ∨ s.ppu.mask.getLsbD 1 = true) then pattern else 0
    let palette := Table.get 0 (ppuTick s).ppu.attr (table * 1024 + (coarseY v0).toNat * 32 + (coarseX v0).toNat)
    let bgIndex := palette.toNat * 4 + bg
    let sp := if s.ppu.mask.getLsbD 4 = true ∧ (8 ≤ p ∨ s.ppu.mask.getLsbD 2 = true) then Grid.get none s.ppu.spr y p else none
    let idx : Nat :=
      match sp with
      | none => if bg = 0 then 0 else bgIndex
      | some q => if bg = 0 then q.index.toNat else if q.behind then bgIndex else q.index.toNat
    (∀ y' x', Grid.get 0 (ppuTick s).ppu.fb y' x' =
      if y' = y ∧ x' = p then Table.get 0 s.ppu.pal (palIndex idx) else Grid.get 0 s.ppu.fb y' x') ∧
    ((ppuTick s).ppu.s0 = true ↔ s.ppu.s0 = true ∨
      ((∃ q, sp = some q ∧ q.zero = true) ∧ bg ≠ 0 ∧ s.ppu.mask.getLsbD 3 = true ∧ s.ppu.mask.getLsbD 4 = true ∧ p ≠ 255)) ∧
    ppuTick s = s.withPpu { s.ppu with
      pixel := p + 1, v := (ppuTick s).ppu.v, attr := (ppuTick s).ppu.attr, fb := (ppuTick s).ppu.fb
      s0 := (ppuTick s).ppu.s0 }) ∧
  (∀ (s : State) (y p : Nat), s.ppu.scanline = y → y ≤ 239 → s.ppu.pixel = p → p ≤ 255 →
    s.ppu.mask.getLsbD 3 = false → s.ppu.mask.getLsbD 4 = false →
    ppuTick s = s.withPpu { s.ppu with pixel := p + 1, fb := Grid.set 0 s.ppu.fb y p (Table.get 0 s.ppu.pal 0) })

/-- R220, R38: the sprite buffer, entry by entry: an entry is opaque exactly where, on the screen, some sprite puts a pattern
value that is not 0, and it then holds that value with the palette, the priority and the stencil bit of the lowest-numbered
such sprite. -/
def Obligations.SpriteBufferSound : Prop :=
  ∀ (s : State) (y x : Nat) (q : SpritePixel), Grid.get none (computeSprites s) y x = some q ↔
    y ≤ 239 ∧ x ≤ 255 ∧
    ∃ i pix, i < 64 ∧ SpritePuts s i y x pix ∧ pix ≠ 0 ∧ (∀ j < i, ∀ other, SpritePuts s j y x other → other = 0) ∧
      q.index.toNat = 16 + (s.ppu.oam.read (4 * i + 2)).toNat % 4 * 4 + pix ∧
      q.behind = (s.ppu.oam.read (4 * i + 2)).getLsbD 5 ∧ (q.zero = true ↔ i = 0)

/-- R35, R228, R230: a step keeps the position in its range and the overflow bit 0. -/
def Obligations.PpuInvariantKept : Prop :=
  ∀ s t, PpuInv s → step s = .next t → PpuInv t

/-! ## The audio unit -/

/-- R263, R264, R265: the frame sequencer's tick at every count of both modes: which units it clocks, when it starts again, and
that it raises the frame interrupt at the last step of 4-step mode alone, unless inhibited; and which units the quarter and the
half clock are. -/
def Obligations.FrameSequencerTicks : Prop :=
  (∀ (s : State) (n : Nat) (a : Apu), n = s.apu.frame.fcount + 1 →
    a = { s.apu with frame := { s.apu.frame with fcount := n } } →
    (n = 3728 ∨ n = 11185 → frameSequencerTick s = s.withApu a.quarter) ∧
    (n = 7456 → frameSequencerTick s = s.withApu a.quarter.half) ∧
    (s.apu.frame.mode5 = false → n = 14914 → s.apu.frame.irqInhibit = true →
      frameSequencerTick s = s.withApu { a.quarter.half with frame := { s.apu.frame with fcount := 0 } }) ∧
    (s.apu.frame.mode5 = false → n = 14914 → s.apu.frame.irqInhibit = false →
      frameSequencerTick s = { s with
        apu := { a.quarter.half with frame := { s.apu.frame with fcount := 0, frameIrq := true } }
        latch := if s.latch = .none then .irqBrk else s.latch }) ∧
    (s.apu.frame.mode5 = true → n = 18640 →
      frameSequencerTick s = s.withApu { a.quarter.half with frame := { s.apu.frame with fcount := 0 } }) ∧
    (n ≠ 3728 → n ≠ 7456 → n ≠ 11185 → (s.apu.frame.mode5 = true ∨ n ≠ 14914) → (s.apu.frame.mode5 = false ∨ n ≠ 18640) →
      frameSequencerTick s = s.withApu a)) ∧
  (∀ a : Apu,
    a.quarter = { a with
      pulse1 := { a.pulse1 with env := a.pulse1.env.clock }
      pulse2 := { a.pulse2 with env := a.pulse2.env.clock }
      noise := { a.noise with env := a.noise.env.clock }
      triangle := a.triangle.linearClock } ∧
    ∃ sweep1 sweep2, sweep1 = a.pulse1.sweepClock true ∧ sweep2 = a.pulse2.sweepClock false ∧
      a.half = { a with
        pulse1 := { sweep1 with length := lengthClock a.pulse1.env.halt a.pulse1.length }
        pulse2 := { sweep2 with length := lengthClock a.pulse2.env.halt a.pulse2.length }
        triangle := { a.triangle with length := lengthClock a.triangle.control a.triangle.length }
        noise := { a.noise with length := lengthClock a.noise.env.halt a.noise.length } })

/-- R266 to R275, R277, R288: the sound units. The length table; a length counter not halted reaches 0 after as many clocks as it
holds and stays there, a halted one stays. The envelope's clock, and that an envelope just started counts from 15 down to 0 in 15
periods. The triangle's linear counter. The sweep unit. The timers: a count down by one, or at 0 the reload and the unit's clock,
so that a unit is clocked once in each period. The noise register, which never becomes 0. The DMC's output unit. The outputs of
the channels and the mixer, whose value is at least 0 and below 1. -/
def Obligations.SoundUnits : Prop :=
  let sweepTarget : Bool → Pulse → Int := fun one p =>
    let change : Int := (p.period.toNat / 2 ^ p.sweepShift.toNat : Nat)
    if p.sweepNeg then (p.period.toNat : Int) - change - (if one then 1 else 0) else (p.period.toNat : Int) + change
  let volume : Envelope → Nat := fun e => if e.constvol then e.vol.toNat else e.decay.toNat
  let duty : List (List Nat) :=
    [[0, 1, 0, 0, 0, 0, 0, 0], [0, 1, 1, 0, 0, 0, 0, 0], [0, 1, 1, 1, 1, 0, 0, 0], [1, 0, 0, 1, 1, 1, 1, 1]]
  let noisePeriod : Noise → Nat := fun c =>
    [2, 4, 8, 16, 32, 48, 64, 80, 101, 127, 190, 254, 381, 508, 1017, 2034].getD c.periodIdx.toNat 0
  let dmcPeriod : Dmc → Nat := fun d =>
    [214, 190, 170, 160, 143, 127, 113, 107, 95, 80, 71, 64, 53, 42, 36, 27].getD d.rateIdx.toNat 0
  -- Length counters (R266 to R268).
  lengthTable = [10, 254, 20, 2, 40, 4, 80, 6, 160, 8, 60, 10, 14, 12, 26, 14, 12, 16, 24, 18, 48, 20, 96, 22, 192, 24, 72, 26,
    16, 28, 32, 30] ∧
  (∀ (n : Byte) (k : Nat), (Nat.repeat (lengthClock false) k n).toNat = n.toNat - k) ∧
  (∀ n : Byte, lengthClock true n = n) ∧
  (∀ (e : Bool) (n v : Byte), lengthLoad e n v = if e then BitVec.ofNat 8 (lengthTable.getD (v.toNat / 8) 0) else n) ∧
  -- Envelopes (R269) and the linear counter (R273).
  (∀ e : Envelope,
    (e.start = true → e.clock = { e with start := false, decay := 15, div := e.vol }) ∧
    (e.start = false → e.div ≠ 0 → e.clock = { e with div := e.div - 1 }) ∧
    (e.start = false → e.div = 0 → e.clock = { e with
      div := e.vol, decay := if e.decay ≠ 0 then e.decay - 1 else if e.halt then 15 else 0 })) ∧
  (∀ (e : Envelope) (k : Nat), e.start = true → k ≤ 15 →
    (Nat.repeat Envelope.clock (1 + k * (e.vol.toNat + 1)) e).decay.toNat = 15 - k) ∧
  (∀ t : Triangle, t.linearClock = { t with
    lin := if t.linReload then t.linReloadVal else BitVec.ofNat 7 (t.lin.toNat - 1), linReload := t.linReload && t.control }) ∧
  -- The sweep unit (R270).
  (∀ (one : Bool) (p : Pulse), ∃ period : BitVec 11,
    p.sweepClock one = { p with
      period := period, sweepDiv := if p.sweepDiv = 0 ∨ p.sweepReload = true then p.sweepPeriod else p.sweepDiv - 1
      sweepReload := false } ∧
    (period.toNat : Int) =
      if p.sweepDiv = 0 ∧ p.sweepEn = true ∧ p.sweepShift ≠ 0 ∧ 8 ≤ p.period.toNat ∧ sweepTarget one p ≤ 0x7FF
      then sweepTarget one p else p.period.toNat) ∧
  -- Timers (R271, R273, R275, R277): one tick, then a whole period of them.
  (∀ p : Pulse, p.timer ≠ 0 → p.timerTick = { p with timer := p.timer - 1 }) ∧
  (∀ p : Pulse, p.timer = 0 → p.timerTick = { p with timer := p.period, seq := p.seq - 1 } ∧
    Nat.repeat Pulse.timerTick (p.period.toNat + 1) p = { p with seq := p.seq - 1 }) ∧
  (∀ t : Triangle, t.timer ≠ 0 → t.timerTick = { t with timer := t.timer - 1 }) ∧
  (∀ (t : Triangle) (seq : BitVec 5), t.timer = 0 → seq = (if t.length ≠ 0 ∧ t.lin ≠ 0 then t.seq + 1 else t.seq) →
    t.timerTick = { t with timer := t.period, seq := seq } ∧
    Nat.repeat Triangle.timerTick (t.period.toNat + 1) t = { t with seq := seq }) ∧
  (∀ c : Noise, c.timer ≠ 0 → c.timerTick = { c with timer := c.timer - 1 }) ∧
  (∀ c : Noise, c.timer = 0 →
    c.timerTick = { c with timer := BitVec.ofNat 12 (noisePeriod c - 1), lfsr := noiseShift c.mode c.lfsr } ∧
    Nat.repeat Noise.timerTick (noisePeriod c) c = { c with lfsr := noiseShift c.mode c.lfsr }) ∧
  (∀ d : Dmc, d.timer ≠ 0 → d.timerTick = { d with timer := d.timer - 1 }) ∧
  (∀ d : Dmc, d.timer = 0 →
    d.timerTick = { d.outputClock with timer := BitVec.ofNat 9 (dmcPeriod d - 1) } ∧
    Nat.repeat Dmc.timerTick (dmcPeriod d) d = d.outputClock) ∧
  -- The noise register (R275) and the DMC's output unit (R277).
  (∀ (mode : Bool) (l : BitVec 15), (noiseShift mode l).toNat =
    l.toNat / 2 + if l.getLsbD 0 = (if mode then l.getLsbD 6 else l.getLsbD 1) then 0 else 0x4000) ∧
  (∀ (mode : Bool) (l : BitVec 15), l ≠ 0 → noiseShift mode l ≠ 0) ∧
  (∀ d : Dmc, ∃ level : BitVec 7,
    (d.silence = true → level = d.level) ∧
    (d.silence = false → d.shift.getLsbD 0 = true → level.toNat = if d.level.toNat ≤ 125 then d.level.toNat + 2 else d.level.toNat) ∧
    (d.silence = false → d.shift.getLsbD 0 = false → level.toNat = if 2 ≤ d.level.toNat then d.level.toNat - 2 else d.level.toNat) ∧
    (d.bitsLeft ≠ 1 → d.outputClock = { d with level := level, shift := d.shift >>> 1, bitsLeft := d.bitsLeft - 1 }) ∧
    (d.bitsLeft = 1 → d.bufferFull = true → d.outputClock = { d with
      level := level, bitsLeft := 8, silence := false, shift := d.buffer, bufferFull := false }) ∧
    (d.bitsLeft = 1 → d.bufferFull = false → d.outputClock = { d with
      level := level, shift := d.shift >>> 1, bitsLeft := 8, silence := true })) ∧
  (∀ d : Dmc, (dmcLevel d).toNat ≤ d.level.toNat + 2 ∧ d.level.toNat ≤ (dmcLevel d).toNat + 2) ∧
  -- Outputs (R272, R274, R275) and the mixer (R288).
  (∀ (p : Pulse) (one : Bool), p.output one =
    if p.length = 0 ∨ p.period.toNat < 8 ∨ sweepTarget one p > 0x7FF ∨ (duty.getD p.duty.toNat []).getD p.seq.toNat 0 = 0 then 0
    else volume p.env) ∧
  (∀ t : Triangle, (t.seq.toNat ≤ 15 → t.output = 15 - t.seq.toNat) ∧ (16 ≤ t.seq.toNat → t.output = t.seq.toNat - 16)) ∧
  (∀ c : Noise, c.output = if c.length = 0 ∨ c.lfsr.getLsbD 0 = true then 0 else volume c.env) ∧
  (∀ (a : Apu) (n m : Nat), n = a.pulse1.output true + a.pulse2.output false →
    m = 3 * a.triangle.output + 2 * a.noise.output + a.dmc.level.toNat →
    a.output = (if n = 0 then 0 else ((9552 / 100 : Rat) / (8128 / (n : Rat) + 100))) +
      (if m = 0 then 0 else ((16367 / 100 : Rat) / (24329 / (m : Rat) + 100))) ∧
    0 ≤ a.output ∧ a.output < 1)

/-- R284, R285, R286, R292: the enables and the status at 0x4015 and the frame counter at 0x4017: a status read's bits and its
one effect, what a write of the enables does to the channels and to the DMC, what a frame-counter write does, and the source's
scenario of 0x07 then 0x80. -/
def Obligations.ApuEnablesAndStatus : Prop :=
  (∀ s : State, ∃ r, memRead 0x4015 s = .ok r { s with
      apu := { s.apu with frame := { s.apu.frame with frameIrq := false } }, draws := s.draws + 1 } ∧
    r.getLsbD 7 = s.apu.dmc.irqFlag ∧ r.getLsbD 6 = s.apu.frame.frameIrq ∧
    r.getLsbD 5 = (Config.openBus s.draws).getLsbD 0 ∧ (r.getLsbD 4 = true ↔ s.apu.dmc.bytesLeft ≠ 0) ∧
    (r.getLsbD 3 = true ↔ s.apu.noise.length ≠ 0) ∧ (r.getLsbD 2 = true ↔ s.apu.triangle.length ≠ 0) ∧
    (r.getLsbD 1 = true ↔ s.apu.pulse2.length ≠ 0) ∧ (r.getLsbD 0 = true ↔ s.apu.pulse1.length ≠ 0)) ∧
  (∀ (s : State) (v : Byte) (d : Dmc),
    let after : State := s.withApu { s.apu with
      pulse1 := { s.apu.pulse1 with enabled := v.getLsbD 0, length := if v.getLsbD 0 then s.apu.pulse1.length else 0 }
      pulse2 := { s.apu.pulse2 with enabled := v.getLsbD 1, length := if v.getLsbD 1 then s.apu.pulse2.length else 0 }
      triangle := { s.apu.triangle with enabled := v.getLsbD 2, length := if v.getLsbD 2 then s.apu.triangle.length else 0 }
      noise := { s.apu.noise with enabled := v.getLsbD 3, length := if v.getLsbD 3 then s.apu.noise.length else 0 }
      dmc := d }
    (v.getLsbD 4 = false → d = { s.apu.dmc with irqFlag := false, bytesLeft := 0 } → memWrite 0x4015 v s = .ok () after) ∧
    (v.getLsbD 4 = true → s.apu.dmc.bytesLeft ≠ 0 → d = { s.apu.dmc with irqFlag := false } →
      memWrite 0x4015 v s = .ok () after) ∧
    (v.getLsbD 4 = true → s.apu.dmc.bytesLeft = 0 →
      d = { s.apu.dmc with irqFlag := false, curAddr := s.apu.dmc.sampleAddr, bytesLeft := s.apu.dmc.sampleLen } →
      memWrite 0x4015 v s = dmcReaderCheck after)) ∧
  (∀ (s : State) (v : Byte) (a : Apu),
    a = { s.apu with frame := { mode5 := v.getLsbD 7, irqInhibit := v.getLsbD 6,
                                frameIrq := if v.getLsbD 6 then false else s.apu.frame.frameIrq, fcount := 0 } } →
    memWrite 0x4017 v s = .ok () (s.withApu (if v.getLsbD 7 then a.quarter.half else a))) ∧
  (∀ s t u : State, memWrite 0x4015 0x07 s = .ok () t → memWrite 0x4015 0x80 t = .ok () u →
    u.apu.pulse1.length = 0 ∧ u.apu.pulse2.length = 0 ∧ u.apu.triangle.length = 0 ∧ u.apu.noise.length = 0 ∧
    u.apu.dmc.bytesLeft = 0)

/-- R280 to R283, R266, R267: a write to each channel register at 0x4000-0x4013: the fields it sets. -/
def Obligations.ApuChannelWrites : Prop :=
  ∀ (s : State) (v : Byte),
    let load : Bool → Byte → Byte := fun on n => if on then BitVec.ofNat 8 (lengthTable.getD (v.toNat / 8) 0) else n
    let volume : Envelope → Envelope := fun e =>
      { e with halt := v.getLsbD 5, constvol := v.getLsbD 4, vol := v.extractLsb 3 0 }
    let low : BitVec 11 → BitVec 11 := fun p => BitVec.ofNat 11 (p.toNat / 256 * 256 + v.toNat)
    let high : BitVec 11 → BitVec 11 := fun p => BitVec.ofNat 11 (v.toNat % 8 * 256 + p.toNat % 256)
    let pulse : Fin 4 → Pulse → Pulse := fun r p =>
      match r with
      | 0 => { p with duty := v.extractLsb 7 6, env := volume p.env }
      | 1 => { p with sweepEn := v.getLsbD 7, sweepPeriod := v.extractLsb 6 4, sweepNeg := v.getLsbD 3,
                      sweepShift := v.extractLsb 2 0, sweepReload := true }
      | 2 => { p with period := low p.period }
      | 3 => { p with period := high p.period, length := load p.enabled p.length, seq := 0,
                      env := { p.env with start := true } }
    (∀ r : Fin 4, memWrite (0x4000 + BitVec.ofNat 16 r) v s =
      .ok () (s.withApu { s.apu with pulse1 := pulse r s.apu.pulse1 })) ∧
    (∀ r : Fin 4, memWrite (0x4004 + BitVec.ofNat 16 r) v s =
      .ok () (s.withApu { s.apu with pulse2 := pulse r s.apu.pulse2 })) ∧
    memWrite 0x4008 v s = .ok () (s.withApu { s.apu with
      triangle := { s.apu.triangle with control := v.getLsbD 7, linReloadVal := v.extractLsb 6 0 } }) ∧
    memWrite 0x4009 v s = .ok () s ∧
    memWrite 0x400A v s = .ok () (s.withApu { s.apu with
      triangle := { s.apu.triangle with period := low s.apu.triangle.period } }) ∧
    memWrite 0x400B v s = .ok () (s.withApu { s.apu with
      triangle := { s.apu.triangle with
        period := high s.apu.triangle.period, length := load s.apu.triangle.enabled s.apu.triangle.length
        linReload := true } }) ∧
    memWrite 0x400C v s = .ok () (s.withApu { s.apu with noise := { s.apu.noise with env := volume s.apu.noise.env } }) ∧
    memWrite 0x400D v s = .ok () s ∧
    memWrite 0x400E v s = .ok () (s.withApu { s.apu with
      noise := { s.apu.noise with mode := v.getLsbD 7, periodIdx := v.extractLsb 3 0 } }) ∧
    memWrite 0x400F v s = .ok () (s.withApu { s.apu with
      noise := { s.apu.noise with
        length := load s.apu.noise.enabled s.apu.noise.length, env := { s.apu.noise.env with start := true } } }) ∧
    memWrite 0x4010 v s = .ok () (s.withApu { s.apu with
      dmc := { s.apu.dmc with
        irqEn := v.getLsbD 7, loop := v.getLsbD 6, rateIdx := v.extractLsb 3 0
        irqFlag := if v.getLsbD 7 then s.apu.dmc.irqFlag else false } }) ∧
    memWrite 0x4011 v s = .ok () (s.withApu { s.apu with dmc := { s.apu.dmc with level := v.extractLsb 6 0 } }) ∧
    memWrite 0x4012 v s = .ok () (s.withApu { s.apu with
      dmc := { s.apu.dmc with sampleAddr := BitVec.ofNat 16 (0xC000 + v.toNat * 64) } }) ∧
    memWrite 0x4013 v s = .ok () (s.withApu { s.apu with
      dmc := { s.apu.dmc with sampleLen := BitVec.ofNat 12 (v.toNat * 16 + 1) } })

/-- R262, R276: the DMC reader's check: with the buffer empty and bytes left, one bus read, the buffer, the address with its wrap,
the count, four cycles owed, and at the end of the sample the loop or the interrupt; otherwise nothing. It is the last part of an
APU tick, after the frame sequencer and the timers, the triangle's twice. -/
def Obligations.DmcReaderReads : Prop :=
  (∀ s : State, s.apu.dmc.bufferFull = true ∨ s.apu.dmc.bytesLeft = 0 → dmcReaderCheck s = .ok () s) ∧
  (∀ s : State, s.apu.dmc.bufferFull = false → s.apu.dmc.bytesLeft ≠ 0 → regionOf s.apu.dmc.curAddr ≠ .unmapped →
    ∃ b t, memRead s.apu.dmc.curAddr s = .ok b t ∧ t.apu.dmc = s.apu.dmc ∧
      let d := s.apu.dmc
      let last : Bool := decide (d.bytesLeft = 1)
      dmcReaderCheck s = .ok () { t with
        apu := { t.apu with dmc := { d with
          buffer := b, bufferFull := true
          curAddr := if last && d.loop then d.sampleAddr else if d.curAddr = 0xFFFF then 0x8000 else d.curAddr + 1
          bytesLeft := if last && d.loop then d.sampleLen else d.bytesLeft - 1
          irqFlag := d.irqFlag || (last && !d.loop && d.irqEn) } }
        latch := if last && !d.loop && d.irqEn && decide (t.latch = .none) then .irqBrk else t.latch
        clock := { t.clock with deferred := t.clock.deferred + 4 } }) ∧
  (∀ s u : State, u = frameSequencerTick s →
    apuTick s = dmcReaderCheck (u.withApu { u.apu with
      pulse1 := u.apu.pulse1.timerTick
      pulse2 := u.apu.pulse2.timerTick
      triangle := u.apu.triangle.timerTick.timerTick
      noise := u.apu.noise.timerTick
      dmc := u.apu.dmc.timerTick }))

/-- R291: a step keeps the APU's ranges, and in every state the outputs and the mixer's indices are in theirs. -/
def Obligations.ApuInvariantKept : Prop :=
  (∀ s t, ApuInv s → step s = .next t → ApuInv t) ∧
  (∀ a : Apu, (∀ (p : Pulse) one, p.output one ≤ 15) ∧ a.triangle.output ≤ 15 ∧ a.noise.output ≤ 15 ∧
    a.pulseIndex ≤ 30 ∧ a.tndIndex ≤ 202)

/-- R279, R380: a step keeps the DMC reader's addresses where a read cannot fault, and where they are there no tick and no
interrupt check faults: what follows the instruction always goes on. -/
def Obligations.TicksNeverFault : Prop :=
  (∀ s t, DmcInv s → step s = .next t → DmcInv t) ∧
  (∀ (i : Instr) (s : State), DmcInv s → ∃ t, settle i s = .next t)

/-- R350, R354, R356: samples appended to a batch that is not full are delivered in full batches, in order, and fewer than a batch
remain. The samples of a step: one for every SAMPLE_DIVISOR master cycles owed, each of the mixer's present value, appended to the
batch; the full batches are handed over after those already there, the rest of the cycles stays owed, and nothing else changes. -/
def Obligations.AudioBatches : Prop :=
  (∀ (n : Nat) (x : Rat) (batch : List Rat), batch.length < Config.audioBatch →
    (appendSamples n x batch).1.length < Config.audioBatch ∧
    (∀ b ∈ (appendSamples n x batch).2, b.length = Config.audioBatch) ∧
    (appendSamples n x batch).2.flatten ++ (appendSamples n x batch).1 = batch ++ List.replicate n x) ∧
  (∀ s : State, BatchInv s → ∃ batch full,
    emitSamples s = { s with
      batch := batch, out := { s.out with batches := s.out.batches ++ full }
      clock := { s.clock with accSample := s.clock.accSample % Config.sampleDivisor } } ∧
    batch.length < Config.audioBatch ∧ (∀ b ∈ full, b.length = Config.audioBatch) ∧
    full.flatten ++ batch = s.batch ++ List.replicate (s.clock.accSample / Config.sampleDivisor) s.apu.output)

/-! ## The coordinator's devices -/

/-- R360, R425: OAM DMA from any page with a handler is 256 bus reads in turn, each with its effects, each byte going to OAM from
`oamaddr` on, around its end, and 513 cycles charged; from a page of memory it changes nothing else. From page 0x40 the reads of
the 24 registers happen and then it faults at 0x4018; from a page without a handler it faults at its first byte. -/
def Obligations.OamDmaCopies : Prop :=
  let copied : State → Byte → Nat → State → State → Prop := fun s v i t u =>
    ∃ b t', memRead (BitVec.ofNat 16 (v.toNat * 256 + i)) t = .ok b t' ∧
      u = t'.withPpu { t'.ppu with oam := t'.ppu.oam.write ((s.ppu.oamaddr.toNat + i) % 256) b }
  (∀ (s : State) (v : Byte), v.toNat < 0x40 ∨ 0x60 ≤ v.toNat →
    ∃ states : Nat → State, states 0 = s ∧ (∀ i < 256, copied s v i (states i) (states (i + 1))) ∧
      memWrite 0x4014 v s =
        .ok () { states 256 with clock := { s.clock with dmaCycles := s.clock.dmaCycles + 513 } } ∧
      (states 256).ppu.oamaddr = s.ppu.oamaddr) ∧
  (∀ (s : State) (v : Byte), v.toNat < 0x20 ∨ 0x60 ≤ v.toNat →
    ∃ oam, memWrite 0x4014 v s = .ok () { s with
        ppu := { s.ppu with oam := oam }, clock := { s.clock with dmaCycles := s.clock.dmaCycles + 513 } } ∧
      ∀ i < 256, s.byteAt (BitVec.ofNat 16 (v.toNat * 256 + i)) = some (oam.read ((s.ppu.oamaddr.toNat + i) % 256))) ∧
  (∀ s : State, ∃ states : Nat → State, states 0 = s ∧ (∀ i < 24, copied s 0x40 i (states i) (states (i + 1))) ∧
    memWrite 0x4014 0x40 s =
      .stop (.fatal (.busUnmappedRead 0x4018) { states 24 with fault := some (.busUnmappedRead 0x4018) })) ∧
  (∀ (s : State) (v : Byte), 0x41 ≤ v.toNat → v.toNat < 0x60 →
    memWrite 0x4014 v s =
      .stop (.fatal (.busUnmappedRead (v ++ 0#8)) { s with fault := some (.busUnmappedRead (v ++ 0#8)) }))

/-- R369, R370, R372: the falling edge of the strobe latches both snapshots; then the k-th read of a controller gives bit k, and
from the ninth on 1; while strobed a read gives button A and shifts nothing; the host's call sets a snapshot and no shift register. -/
def Obligations.ControllerReads : Prop :=
  (∀ (s : State) (v : Byte), memWrite 0x4016 v s = .ok () { s with
    pads :=
      if s.pads.strobe = true ∧ v.getLsbD 0 = false then
        { pad0 := { s.pads.pad0 with shift := s.pads.pad0.buttons }
          pad1 := { s.pads.pad1 with shift := s.pads.pad1.buttons }, strobe := false }
      else { s.pads with strobe := v.getLsbD 0 } }) ∧
  (∀ (s : State) (k : Nat), s.pads.strobe = false →
    let again : Word → State → State := fun a u => match memRead a u with | .ok _ t => t | .stop _ => u
    (∃ r t, memRead 0x4016 (Nat.repeat (again 0x4016) k s) = .ok r t ∧
      r.getLsbD 0 = (if k < 8 then s.pads.pad0.shift.getLsbD k else true)) ∧
    (∃ r t, memRead 0x4017 (Nat.repeat (again 0x4017) k s) = .ok r t ∧
      r.getLsbD 0 = (if k < 8 then s.pads.pad1.shift.getLsbD k else true))) ∧
  (∀ s : State, s.pads.strobe = true → ∃ r q,
    memRead 0x4016 s = .ok r { s with draws := s.draws + 1 } ∧ r.getLsbD 0 = s.pads.pad0.buttons.getLsbD 0 ∧
    memRead 0x4017 s = .ok q { s with draws := s.draws + 1 } ∧ q.getLsbD 0 = s.pads.pad1.buttons.getLsbD 0) ∧
  (∀ (s : State) (b : Byte),
    setControllerState 0 b s = { s with pads := { s.pads with pad0 := { s.pads.pad0 with buttons := b } } } ∧
    setControllerState 1 b s = { s with pads := { s.pads with pad1 := { s.pads.pad1 with buttons := b } } })

/-! ## Mapper and loader -/

/-- R17, R327 to R330, R332, R335, R336, R337, R340: register writes: fatal on mapper 0; on mappers 1 to 4 the registers written,
and where the windows are recomputed the write goes on with them or is `BANK_OVERFLOW` (`MapperTakes`): the bank of mappers 2 and
3; on mapper 1 the bit shifted in, the fifth bit into the register its own address chooses, a set bit 7 that aborts and forces PRG
mode 3, and the whole of five writes, each at an address of its own, first bit lowest; on mapper 4 the select, bank and mirroring
registers, and the addresses without effect.
That a `BANK_OVERFLOW` leaves the registers written is R17 with R332, and the windows unchanged R328; log entry 6 says how the
model reads R382 beside them. Which missing window its record names is left open here (log entry 14). -/
def Obligations.MapperRegisterWrites : Prop :=
  ∀ (s : State) (a : Word) (v : Byte) (n c : Nat), 0x8000 ≤ a.toNat → n = s.cart.prgPages → c = s.cart.chrPages →
    (s.mapper = .mapper0 →
      memWrite a v s = .stop (.fatal (.prgRomWrite a v) { s with fault := some (.prgRomWrite a v) })) ∧
    (∀ bank, s.mapper = .mapper2 bank → MapperTakes s a v (.mapper2 v)) ∧
    (∀ bank, s.mapper = .mapper2 bank → 2 ≤ n → 8 ≤ c → 2 * v.toNat + 1 < n → memWrite a v s = .ok () { s with
      mapper := .mapper2 v
      win := ⟨#v[2 * v.toNat, 2 * v.toNat + 1, n - 2, n - 1], #v[0, 1, 2, 3, 4, 5, 6, 7]⟩ }) ∧
    (∀ bank, s.mapper = .mapper2 bank → n ≤ 2 * v.toNat + 1 → ∃ w, memWrite a v s =
      .stop (.fatal (.bankOverflow a v w) { s with mapper := .mapper2 v, fault := some (.bankOverflow a v w) })) ∧
    (∀ bank, s.mapper = .mapper3 bank → MapperTakes s a v (.mapper3 v)) ∧
    (∀ bank, s.mapper = .mapper3 bank → 2 ≤ n → 8 * v.toNat + 7 < c → ∃ w, memWrite a v s = .ok () { s with
        mapper := .mapper3 v, win := w } ∧ w.prg = #v[0, 1, n - 2, n - 1] ∧
      ∀ i (h : i < 8), w.chr[i] = 8 * v.toNat + i) ∧
    (∀ bank, s.mapper = .mapper3 bank → c ≤ 8 * v.toNat + 7 → ∃ w, memWrite a v s =
      .stop (.fatal (.bankOverflow a v w) { s with mapper := .mapper3 v, fault := some (.bankOverflow a v w) })) ∧
    (∀ r, s.mapper = .mapper1 r → v.getLsbD 7 = true →
      MapperTakes s a v (.mapper1 { r with shift := 0, count := 0, control := r.control ||| 0x0C })) ∧
    (∀ (r : Mmc1) (shift : BitVec 5), s.mapper = .mapper1 r → v.getLsbD 7 = false →
      shift.toNat = r.shift.toNat / 2 + 16 * (v.toNat % 2) →
      (r.count ≠ 4 → memWrite a v s = .ok () { s with mapper := .mapper1 { r with shift := shift, count := r.count + 1 } }) ∧
      (r.count = 4 → MapperTakes s a v (.mapper1 { r with
        shift := 0, count := 0
        control := if a.toNat < 0xA000 then shift else r.control
        chr0 := if 0xA000 ≤ a.toNat ∧ a.toNat < 0xC000 then shift else r.chr0
        chr1 := if 0xC000 ≤ a.toNat ∧ a.toNat < 0xE000 then shift else r.chr1
        prg := if 0xE000 ≤ a.toNat then shift else r.prg }))) ∧
    (∀ (r : Mmc1) (a0 a1 a2 a3 : Word) (v0 v1 v2 v3 : Byte), s.mapper = .mapper1 r → r.count = 0 →
      0x8000 ≤ a0.toNat → 0x8000 ≤ a1.toNat → 0x8000 ≤ a2.toNat → 0x8000 ≤ a3.toNat →
      v0.getLsbD 7 = false → v1.getLsbD 7 = false → v2.getLsbD 7 = false → v3.getLsbD 7 = false → v.getLsbD 7 = false →
      let value : BitVec 5 := BitVec.ofNat 5
        (v0.toNat % 2 + 2 * (v1.toNat % 2) + 4 * (v2.toNat % 2) + 8 * (v3.toNat % 2) + 16 * (v.toNat % 2))
      ∃ s1 s2 s3 s4 shift, memWrite a0 v0 s = .ok () s1 ∧ memWrite a1 v1 s1 = .ok () s2 ∧ memWrite a2 v2 s2 = .ok () s3 ∧
        memWrite a3 v3 s3 = .ok () s4 ∧ s4 = { s with mapper := .mapper1 { r with shift := shift, count := 4 } } ∧
        MapperTakes s4 a v (.mapper1 { r with
          shift := 0, count := 0
          control := if a.toNat < 0xA000 then value else r.control
          chr0 := if 0xA000 ≤ a.toNat ∧ a.toNat < 0xC000 then value else r.chr0
          chr1 := if 0xC000 ≤ a.toNat ∧ a.toNat < 0xE000 then value else r.chr1
          prg := if 0xE000 ≤ a.toNat then value else r.prg })) ∧
    (∀ r, s.mapper = .mapper4 r →
      (a.toNat < 0xA000 → a.toNat % 2 = 0 → MapperTakes s a v (.mapper4 { r with select := v })) ∧
      (a.toNat < 0xA000 → a.toNat % 2 = 1 → ∃ q : Mmc3, q.select = r.select ∧ q.mirror = r.mirror ∧
        (∀ k (h : k < 8), q.r[k] = if k = r.select.toNat % 8 then v else r.r[k]) ∧ MapperTakes s a v (.mapper4 q)) ∧
      (0xA000 ≤ a.toNat → a.toNat < 0xC000 → a.toNat % 2 = 0 →
        MapperTakes s a v (.mapper4 { r with mirror := v.getLsbD 0 })) ∧
      (0xA000 ≤ a.toNat → a.toNat % 2 = 1 ∨ 0xC000 ≤ a.toNat → memWrite a v s = .ok () s))

/-- R330, R333 to R336, R338: the windows as a function of the registers, for every mapper, and mapper 1's mirroring mode. -/
def Obligations.WindowTables : Prop :=
  (∀ n, (Mapper.mapper0.windows n).prg = #v[0, 1, n - 2, n - 1] ∧ (Mapper.mapper0.windows n).chr = #v[0, 1, 2, 3, 4, 5, 6, 7]) ∧
  (∀ (bank : Byte) (n : Nat),
    ((Mapper.mapper2 bank).windows n).prg = #v[2 * bank.toNat, 2 * bank.toNat + 1, n - 2, n - 1] ∧
    ((Mapper.mapper2 bank).windows n).chr = #v[0, 1, 2, 3, 4, 5, 6, 7] ∧
    ((Mapper.mapper3 bank).windows n).prg = #v[0, 1, n - 2, n - 1] ∧
    ∀ i (h : i < 8), ((Mapper.mapper3 bank).windows n).chr[i] = 8 * bank.toNat + i) ∧
  (∀ (r : Mmc1) (n m b : Nat), m = r.control.toNat / 4 % 4 → b = r.prg.toNat % 16 →
    (Mapper.mapper1 r).windows n = ⟨r.prgWindows n, r.chrWindows⟩ ∧
    (m < 2 → r.prgWindows n = #v[4 * (b / 2), 4 * (b / 2) + 1, 4 * (b / 2) + 2, 4 * (b / 2) + 3]) ∧
    (m = 2 → r.prgWindows n = #v[0, 1, 2 * b, 2 * b + 1]) ∧
    (m = 3 → r.prgWindows n = #v[2 * b, 2 * b + 1, n - 2, n - 1]) ∧
    (r.control.toNat < 16 → ∀ i (h : i < 8), r.chrWindows[i] = 8 * (r.chr0.toNat / 2) + i) ∧
    (16 ≤ r.control.toNat → ∀ i (h : i < 4), r.chrWindows[i] = 4 * r.chr0.toNat + i ∧
      r.chrWindows[4 + i] = 4 * r.chr1.toNat + i) ∧
    r.mirroring = (match r.control.toNat % 4 with
      | 0 => .singleLower | 1 => .singleUpper | 2 => .vertical | _ => .horizontal)) ∧
  (∀ (r : Mmc3) (n : Nat),
    let r6 := r.r[6].toNat % 64
    let r7 := r.r[7].toNat % 64
    let even : Byte → Nat := fun b => b.toNat / 2 * 2
    (Mapper.mapper4 r).windows n = ⟨r.prgWindows n, r.chrWindows⟩ ∧
    r.prgWindows n = (if r.select.toNat / 64 % 2 = 0 then #v[r6, r7, n - 2, n - 1] else #v[n - 2, r7, r6, n - 1]) ∧
    r.chrWindows =
      (if r.select.toNat < 128 then
        #v[even r.r[0], even r.r[0] + 1, even r.r[1], even r.r[1] + 1, r.r[2].toNat, r.r[3].toNat, r.r[4].toNat, r.r[5].toNat]
      else
        #v[r.r[2].toNat, r.r[3].toNat, r.r[4].toNat, r.r[5].toNat, even r.r[0], even r.r[0] + 1, even r.r[1],
           even r.r[1] + 1]))

/-- R69, R326, R327, R328: a step keeps the windows those of the registers, each naming a page that exists. -/
def Obligations.WindowsInvariantKept : Prop :=
  ∀ s t, WindowsInv s → step s = .next t → WindowsInv t

/-- R321, R323, R324, R381, R410 to R416: an image that fails the signature, length or mapper check does not load, by the name of
the first check it fails; one that passes them loads exactly if it has a PRG page, for then the power-up windows of every mapper
name existing pages, and is `L_BANK_OVERFLOW` if it has none. A console that loads has the image's pages and stands at power-up:
the CPU with PC from 0xFFFC, the PPU, the APU, the mapper's registers, the coordinator. -/
def Obligations.LoadedConsole : Prop :=
  ∀ (mem : InitMem) (bytes : List Byte) (n c k : Nat) (hdr : Bool),
    n = (bytes.getD 4 0).toNat * 2 → c = (bytes.getD 5 0).toNat * 8 →
    k = (bytes.getD 7 0).toNat / 16 * 16 + (bytes.getD 6 0).toNat / 16 → hdr = (bytes.getD 6 0).getLsbD 0 →
    (bytes.take 4 ≠ [0x4E, 0x45, 0x53, 0x1A] → loadCartridge mem bytes = .error .badSignature) ∧
    (bytes.take 4 = [0x4E, 0x45, 0x53, 0x1A] → bytes.length = 16 → loadCartridge mem bytes = .error .headerOnly) ∧
    (bytes.take 4 = [0x4E, 0x45, 0x53, 0x1A] → bytes.length < 16 → loadCartridge mem bytes = .error .badLength) ∧
    (bytes.take 4 = [0x4E, 0x45, 0x53, 0x1A] → 16 < bytes.length → bytes.length ≠ 16 + n * 8192 + c * 1024 →
      loadCartridge mem bytes = .error .badLength) ∧
    (bytes.take 4 = [0x4E, 0x45, 0x53, 0x1A] → 16 < bytes.length → bytes.length = 16 + n * 8192 + c * 1024 →
      (4 < k → loadCartridge mem bytes = .error .unsupportedMapper) ∧
      (k ≤ 4 → n = 0 → loadCartridge mem bytes = .error .bankOverflow) ∧
      (k ≤ 4 → n ≠ 0 → ∃ s, loadCartridge mem bytes = .ok s)) ∧
    (∀ s, loadCartridge mem bytes = .ok s →
      bytes.take 4 = [0x4E, 0x45, 0x53, 0x1A] ∧ bytes.length = 16 + n * 8192 + c * 1024 ∧ bytes.length ≠ 16 ∧
      k ≤ 4 ∧ s.mapper.number = k ∧ s.loaded = true ∧ s.fault = none ∧ WindowsInv s ∧
      s.cart.prg.length = n ∧
      (∀ p m, s.cart.prg[p]? = some m → ∀ j < 8192, m.read j = bytes.getD (16 + 8192 * p + j) 0) ∧
      (c ≠ 0 → s.cart.chrIsRam = false ∧ s.cart.chr.length = c ∧
        ∀ p m, s.cart.chr[p]? = some m → ∀ j < 1024, m.read j = bytes.getD (16 + n * 8192 + 1024 * p + j) 0) ∧
      (c = 0 → s.cart.chrIsRam = true ∧ s.cart.chr = mem.chrRam.toList) ∧
      s.cart.hdrMirroring = hdr ∧ s.cart.sramFlag = (bytes.getD 6 0).getLsbD 1 ∧
      (k = 1 → s.mapper = .mapper1 { shift := 0, count := 0, control := 0x0C, chr0 := 0, chr1 := 0, prg := 0 }) ∧
      (k = 2 → s.mapper = .mapper2 0) ∧ (k = 3 → s.mapper = .mapper3 0) ∧
      (k = 4 → ∃ r, s.mapper = .mapper4 r ∧ r.select = 0 ∧ (∀ i (h : i < 8), r.r[i] = 0) ∧
        s.mirroring = if hdr then .vertical else .horizontal) ∧
      s.cpu.pc = bytes.getD (16 + n * 8192 - 3) 0 ++ bytes.getD (16 + n * 8192 - 4) 0 ∧
      s.cpu = { a := 0, x := 0, y := 0, s := 0xFD, pc := prgRead s 0xFFFD ++ prgRead s 0xFFFC, n := false, v := false,
                d := false, i := true, z := false, c := false, brk := false } ∧ s.cpu.status true = 0x34 ∧
      s.ppu = { ctrl := 0, mask := 0, vbl := false, s0 := false, ovf := false, oamaddr := 0, v := 0, t := 0, x := 0,
                w := false, buffer := 0, scanline := -1, pixel := 0, odd := false, nmiInhibit := false,
                ciram := mem.ciram, pal := mem.pal, oam := mem.oam, spr := [], attr := [], fb := [] } ∧
      (∀ p, p = s.apu.pulse1 ∨ p = s.apu.pulse2 → p =
        { duty := 0, env := ⟨false, false, 0, false, 0, 0⟩, sweepEn := false, sweepNeg := false, sweepPeriod := 0,
          sweepShift := 0, sweepDiv := 0, sweepReload := false, period := 0, timer := 0, seq := 0, length := 0,
          enabled := false }) ∧
      s.apu.triangle = { control := false, linReloadVal := 0, lin := 0, linReload := false, period := 0, timer := 0, seq := 0,
                         length := 0, enabled := false } ∧
      s.apu.noise = { env := ⟨false, false, 0, false, 0, 0⟩, mode := false, periodIdx := 0, timer := 0, lfsr := 1,
                      length := 0, enabled := false } ∧
      s.apu.dmc = { irqEn := false, loop := false, rateIdx := 0, level := 0, sampleAddr := 0xC000, sampleLen := 1,
                    curAddr := 0, bytesLeft := 0, buffer := 0, bufferFull := false, shift := 0, bitsLeft := 8,
                    silence := true, timer := 0, irqFlag := false } ∧
      s.apu.frame = ⟨false, false, false, 0⟩ ∧
      s.ram = mem.ram ∧ s.sram = mem.sram ∧ s.latch = .none ∧ s.clock = ⟨0, 0, 0, 0, 0, 0⟩ ∧ s.batch = [] ∧
      s.pads = ⟨⟨0, 0⟩, ⟨0, 0⟩, false⟩)

/-- Canonical memories of their sizes (R37 to R40, R47, R49, R50; log entry 2): a step keeps every memory of the machine so. -/
def Obligations.MemoryInvariantKept : Prop :=
  ∀ s t, MemoryInv s → step s = .next t → MemoryInv t

/-- R411 to R415, and the model's own choices of log entries 1 and 2: `State.reset` meets every invariant of a safe run, and
holds the power-up values of the CPU's registers. -/
def Obligations.ResetMeetsInvariants : Prop :=
  MemoryInv State.reset ∧ PpuInv State.reset ∧ ApuInv State.reset ∧ DmcInv State.reset ∧ LatchInv State.reset ∧
  ClockInv State.reset ∧ WindowsInv State.reset ∧ BatchInv State.reset ∧
  State.reset.cpu = { a := 0, x := 0, y := 0, s := 0xFD, pc := 0, n := false, v := false, d := false, i := true, z := false,
                      c := false, brk := false }

end
end

