-- ==== Sys2Proof/Laws/Memory.lean ====
section
/-! SUPPORT. Sparse memories: a read after a write, that a write leaves every other place alone, that every operation keeps
the canonical form, and that two canonical tables that read alike are equal. -/

namespace Sys2Proof.Machine

variable {α : Type}

theorem Table.get_insert_self (d : α) (n : Nat) (v : α) (t : Table α) : Table.get d (Table.insert n v t) n = v := by
  induction t with
  | nil => simp [Table.insert, Table.get]
  | cons p t ih =>
    obtain ⟨k, w⟩ := p
    simp only [Table.insert]
    split
    · simp [Table.get]
    · split
      · simp [Table.get]
      · rename_i h; simp [Table.get, h, ih]

theorem Table.get_insert_ne (d : α) {n m : Nat} (v : α) (t : Table α) (h : m ≠ n) :
    Table.get d (Table.insert n v t) m = Table.get d t m := by
  induction t with
  | nil => simp [Table.insert, Table.get, h]
  | cons p t ih =>
    obtain ⟨k, w⟩ := p
    simp only [Table.insert]
    split
    · simp [Table.get, h]
    · split
      · rename_i hk; subst hk; simp [Table.get, h]
      · simp [Table.get, ih]

theorem Table.get_erase_self (d : α) (n : Nat) (t : Table α) : Table.get d (Table.erase n t) n = d := by
  induction t with
  | nil => rfl
  | cons p t ih =>
    obtain ⟨k, w⟩ := p
    by_cases hk : k = n
    · simpa [Table.erase, hk] using ih
    · have hn : n ≠ k := fun e => hk e.symm
      have hb : (k != n) = true := by simpa using hk
      simpa [Table.erase, List.filter, hb, Table.get, hn] using ih

theorem Table.get_erase_ne (d : α) {n m : Nat} (t : Table α) (h : m ≠ n) :
    Table.get d (Table.erase n t) m = Table.get d t m := by
  induction t with
  | nil => rfl
  | cons p t ih =>
    obtain ⟨k, w⟩ := p
    by_cases hk : k = n
    · subst hk; simpa [Table.erase, Table.get, h] using ih
    · have hb : (k != n) = true := by simpa using hk
      have ih' : Table.get d (List.filter (fun p => p.1 != n) t) m = Table.get d t m := ih
      simp [Table.erase, List.filter, hb, Table.get, ih']

/-- A read after a write to the same place gives the value written. -/
@[simp] theorem Table.get_set_self [DecidableEq α] (d : α) (t : Table α) (n : Nat) (v : α) :
    Table.get d (Table.set d t n v) n = v := by
  unfold Table.set; split
  · rename_i h; rw [Table.get_erase_self, h]
  · exact Table.get_insert_self d n v t

/-- A write leaves every other place alone. -/
theorem Table.get_set_ne [DecidableEq α] (d : α) (t : Table α) {n m : Nat} (v : α) (h : m ≠ n) :
    Table.get d (Table.set d t n v) m = Table.get d t m := by
  unfold Table.set; split
  · exact Table.get_erase_ne d t h
  · exact Table.get_insert_ne d v t h

theorem Table.get_set [DecidableEq α] (d : α) (t : Table α) (n m : Nat) (v : α) :
    Table.get d (Table.set d t n v) m = if m = n then v else Table.get d t m := by
  split
  · rename_i h; rw [h, Table.get_set_self]
  · rename_i h; exact Table.get_set_ne d t v h

/-! ## The canonical form is kept -/

theorem Table.Wf.nil [DecidableEq α] (d : α) : Table.Wf d ([] : Table α) := by simp [Table.Wf]

theorem Table.Wf.erase [DecidableEq α] {d : α} {t : Table α} (h : Table.Wf d t) (n : Nat) : Table.Wf d (Table.erase n t) :=
  ⟨h.1.filter _, fun p hp => h.2 p (List.mem_filter.1 hp).1⟩

theorem Table.mem_insert {n : Nat} {v : α} {t : Table α} {p : Nat × α} (h : p ∈ Table.insert n v t) : p = (n, v) ∨ p ∈ t := by
  induction t with
  | nil => simpa [Table.insert] using h
  | cons q t ih =>
    obtain ⟨k, w⟩ := q
    simp only [Table.insert] at h
    split at h
    · simpa using h
    · split at h
      · rcases List.mem_cons.1 h with h | h
        · exact .inl h
        · exact .inr (List.mem_cons_of_mem _ h)
      · rcases List.mem_cons.1 h with h | h
        · exact .inr (h ▸ List.mem_cons_self)
        · exact (ih h).imp_right (List.mem_cons_of_mem _)

theorem Table.Wf.insert [DecidableEq α] {d : α} {t : Table α} (h : Table.Wf d t) (n : Nat) {v : α} (hv : v ≠ d) :
    Table.Wf d (Table.insert n v t) := by
  refine ⟨?_, fun p hp => ?_⟩
  · induction t with
    | nil => simp [Table.insert]
    | cons q t ih =>
      obtain ⟨k, w⟩ := q
      have hp := List.pairwise_cons.1 h.1
      have ht : Table.Wf d t := ⟨hp.2, fun p hp => h.2 p (List.mem_cons_of_mem _ hp)⟩
      simp only [Table.insert]
      split
      · rename_i hlt
        refine List.pairwise_cons.2 ⟨fun q hq => ?_, h.1⟩
        rcases List.mem_cons.1 hq with rfl | hq
        · exact hlt
        · exact Nat.lt_trans hlt (hp.1 q hq)
      · split
        · rename_i heq; subst heq; exact List.pairwise_cons.2 ⟨hp.1, hp.2⟩
        · rename_i hlt hne
          refine List.pairwise_cons.2 ⟨fun q hq => ?_, ih ht⟩
          rcases Table.mem_insert hq with rfl | hq
          · show k < n; omega
          · exact hp.1 q hq
  · rcases Table.mem_insert hp with rfl | hp
    · exact hv
    · exact h.2 p hp

/-- A write keeps the canonical form. -/
theorem Table.Wf.set [DecidableEq α] {d : α} {t : Table α} (h : Table.Wf d t) (n : Nat) (v : α) :
    Table.Wf d (Table.set d t n v) := by
  unfold Table.set; split
  · exact h.erase n
  · rename_i hv; exact h.insert n hv

theorem Table.le_of_mem_ofValues [DecidableEq α] {d : α} {start : Nat} {vs : List α} {p : Nat × α}
    (h : p ∈ Table.ofValues d start vs) : start ≤ p.1 := by
  induction vs generalizing start with
  | nil => simp [Table.ofValues] at h
  | cons v vs ih =>
    simp only [Table.ofValues] at h
    split at h
    · exact Nat.le_of_succ_le (ih h)
    · rcases List.mem_cons.1 h with rfl | h
      · exact Nat.le_refl _
      · exact Nat.le_of_succ_le (ih h)

theorem Table.lt_of_mem_ofValues [DecidableEq α] {d : α} {start : Nat} {vs : List α} {p : Nat × α}
    (h : p ∈ Table.ofValues d start vs) : p.1 < start + vs.length := by
  induction vs generalizing start with
  | nil => simp [Table.ofValues] at h
  | cons v vs ih =>
    simp only [Table.ofValues] at h
    split at h
    · have := ih h; simp; omega
    · rcases List.mem_cons.1 h with rfl | h
      · simp
      · have := ih h; simp; omega

/-- The table of a sequence is canonical. -/
theorem Table.Wf.ofValues [DecidableEq α] (d : α) (start : Nat) (vs : List α) : Table.Wf d (Table.ofValues d start vs) := by
  induction vs generalizing start with
  | nil => exact Table.Wf.nil d
  | cons v vs ih =>
    simp only [Table.ofValues]
    split
    · exact ih (start + 1)
    · rename_i hv
      refine ⟨List.pairwise_cons.2 ⟨fun q hq => Table.le_of_mem_ofValues hq, (ih _).1⟩, fun p hp => ?_⟩
      rcases List.mem_cons.1 hp with rfl | hp
      · exact hv
      · exact (ih _).2 p hp

theorem Table.get_eq_of_forall_ne (d : α) {t : Table α} {n : Nat} (h : ∀ p ∈ t, p.1 ≠ n) : Table.get d t n = d := by
  induction t with
  | nil => rfl
  | cons p t ih =>
    obtain ⟨k, w⟩ := p
    have hk : n ≠ k := fun e => h (k, w) List.mem_cons_self e.symm
    simp only [Table.get, if_neg hk]
    exact ih fun q hq => h q (List.mem_cons_of_mem _ hq)

/-- What the table of a sequence holds: the sequence from `start` on, the unlisted value after it. -/
theorem Table.get_ofValues [DecidableEq α] (d : α) (start : Nat) (vs : List α) (k : Nat) :
    Table.get d (Table.ofValues d start vs) (start + k) = vs.getD k d := by
  induction vs generalizing start k with
  | nil => simp [Table.ofValues, Table.get]
  | cons v vs ih =>
    simp only [Table.ofValues]
    split
    · rename_i hv
      cases k with
      | zero =>
        rw [Table.get_eq_of_forall_ne d fun p hp => by have := Table.le_of_mem_ofValues hp; omega]
        simpa using hv.symm
      | succ k => rw [show start + (k + 1) = start + 1 + k by omega, ih]; simp
    · cases k with
      | zero => simp [Table.get]
      | succ k =>
        have hne : start + (k + 1) ≠ start := by omega
        simp only [Table.get, if_neg hne]
        rw [show start + (k + 1) = start + 1 + k by omega, ih]; simp

theorem Table.get_of_mem [DecidableEq α] {d : α} {t : Table α} (h : Table.Wf d t) {p : Nat × α} (hp : p ∈ t) :
    Table.get d t p.1 = p.2 := by
  induction t with
  | nil => simp at hp
  | cons q t ih =>
    have hq := List.pairwise_cons.1 h.1
    have ht : Table.Wf d t := ⟨hq.2, fun p hp => h.2 p (List.mem_cons_of_mem _ hp)⟩
    obtain ⟨k, w⟩ := q
    rcases List.mem_cons.1 hp with rfl | hp
    · simp [Table.get]
    · have hlt : k < p.1 := hq.1 p hp
      have hne : p.1 ≠ k := by omega
      simp only [Table.get, if_neg hne]
      exact ih ht hp

theorem Table.mem_of_get_ne {d : α} {t : Table α} {n : Nat} (h : Table.get d t n ≠ d) : (n, Table.get d t n) ∈ t := by
  induction t with
  | nil => exact absurd rfl h
  | cons q t ih =>
    obtain ⟨k, w⟩ := q
    simp only [Table.get] at h ⊢
    split
    · rename_i hk; subst hk; exact List.mem_cons_self
    · rename_i hk; simp only [if_neg hk] at h; exact List.mem_cons_of_mem _ (ih h)

theorem Table.mem_iff [DecidableEq α] {d : α} {t : Table α} (h : Table.Wf d t) (p : Nat × α) :
    p ∈ t ↔ Table.get d t p.1 = p.2 ∧ p.2 ≠ d :=
  ⟨fun hp => ⟨Table.get_of_mem h hp, h.2 p hp⟩,
   fun ⟨he, hd⟩ => by have := Table.mem_of_get_ne (d := d) (t := t) (n := p.1) (he ▸ hd); rwa [he] at this⟩

/-- Canonical tables are equal data exactly when they read alike. -/
theorem Table.ext [DecidableEq α] {d : α} {t u : Table α} (ht : Table.Wf d t) (hu : Table.Wf d u)
    (h : ∀ n, Table.get d t n = Table.get d u n) : t = u := by
  have hmem : ∀ p, p ∈ t ↔ p ∈ u := fun p => by rw [Table.mem_iff ht, Table.mem_iff hu, h]
  induction t generalizing u with
  | nil =>
    cases u with
    | nil => rfl
    | cons q u => exact absurd ((hmem q).2 List.mem_cons_self) (by simp)
  | cons p t ih =>
    cases u with
    | nil => exact absurd ((hmem p).1 List.mem_cons_self) (by simp)
    | cons q u =>
      have hp := List.pairwise_cons.1 ht.1
      have hq := List.pairwise_cons.1 hu.1
      have hpq : p = q := by
        rcases List.mem_cons.1 ((hmem p).1 List.mem_cons_self) with e | e
        · exact e
        · rcases List.mem_cons.1 ((hmem q).2 List.mem_cons_self) with e' | e'
          · exact e'.symm
          · have := hq.1 p e; have := hp.1 q e'; omega
      subst hpq
      have ht' : Table.Wf d t := ⟨hp.2, fun r hr => ht.2 r (List.mem_cons_of_mem _ hr)⟩
      have hu' : Table.Wf d u := ⟨hq.2, fun r hr => hu.2 r (List.mem_cons_of_mem _ hr)⟩
      have hm : ∀ r, r ∈ t ↔ r ∈ u := fun r => by
        constructor
        · intro hr
          rcases List.mem_cons.1 ((hmem r).1 (List.mem_cons_of_mem _ hr)) with e | e
          · have := hp.1 r hr; rw [e] at this; exact absurd this (Nat.lt_irrefl _)
          · exact e
        · intro hr
          rcases List.mem_cons.1 ((hmem r).2 (List.mem_cons_of_mem _ hr)) with e | e
          · have := hq.1 r hr; rw [e] at this; exact absurd this (Nat.lt_irrefl _)
          · exact e
      have hg : ∀ n, Table.get d t n = Table.get d u n := fun n => by
        by_cases e : Table.get d t n = d
        · by_cases e' : Table.get d u n = d
          · rw [e, e']
          · have hr := (hm _).2 (Table.mem_of_get_ne e')
            have := Table.get_of_mem ht' hr
            exact this
        · have hr := (hm _).1 (Table.mem_of_get_ne e)
          have := Table.get_of_mem hu' hr
          exact this.symm
      rw [ih ht' hu' hg hm]

/-! ## Memories of bytes -/

@[simp] theorem Memory.read_write_self (m : Memory) (a : Nat) (v : Byte) : (m.write a v).read a = v :=
  Table.get_set_self unlistedByte m a v

theorem Memory.read_write_ne (m : Memory) {a b : Nat} (v : Byte) (h : b ≠ a) : (m.write a v).read b = m.read b :=
  Table.get_set_ne unlistedByte m v h

theorem Memory.read_write (m : Memory) (a b : Nat) (v : Byte) : (m.write a v).read b = if b = a then v else m.read b :=
  Table.get_set unlistedByte m a b v

theorem Memory.wf_nil : Memory.wf [] := Table.Wf.nil unlistedByte

theorem Memory.wf.write {m : Memory} (h : m.wf) (a : Nat) (v : Byte) : (m.write a v).wf := Table.Wf.set h a v

theorem Memory.wf_ofBytes (bs : List Byte) : (Memory.ofBytes bs).wf := Table.Wf.ofValues unlistedByte 0 bs

theorem Memory.read_ofBytes (bs : List Byte) (k : Nat) : (Memory.ofBytes bs).read k = bs.getD k unlistedByte := by
  have := Table.get_ofValues unlistedByte 0 bs k
  rwa [Nat.zero_add] at this

theorem Memory.ext {m n : Memory} (hm : m.wf) (hn : n.wf) (h : ∀ a, m.read a = n.read a) : m = n := Table.ext hm hn h

/-! ## Grids -/

theorem Grid.get_set [DecidableEq α] (d : α) (g : Grid α) (y x y' x' : Nat) (v : α) :
    Grid.get d (Grid.set d g y x v) y' x' = if y' = y ∧ x' = x then v else Grid.get d g y' x' := by
  unfold Grid.get Grid.set
  rw [Table.get_set]
  by_cases hy : y' = y
  · subst hy; simp only [if_true, true_and]; exact Table.get_set d _ x x' v
  · simp [hy]

theorem Grid.Wf.nil [DecidableEq α] (d : α) : Grid.Wf d ([] : Grid α) := ⟨Table.Wf.nil [], by simp⟩

theorem Grid.Wf.row [DecidableEq α] {d : α} {g : Grid α} (h : Grid.Wf d g) (y : Nat) : Table.Wf d (Table.get [] g y) := by
  by_cases e : Table.get [] g y = []
  · rw [e]; exact Table.Wf.nil d
  · exact h.2 _ (Table.mem_of_get_ne e)

/-- A write keeps a grid's canonical form. -/
theorem Grid.Wf.set [DecidableEq α] {d : α} {g : Grid α} (h : Grid.Wf d g) (y x : Nat) (v : α) :
    Grid.Wf d (Grid.set d g y x v) := by
  refine ⟨Table.Wf.set h.1 y _, fun p hp => ?_⟩
  rw [Grid.set, Table.set] at hp
  split at hp
  · exact h.2 p (List.mem_filter.1 hp).1
  · rcases Table.mem_insert hp with rfl | hp
    · exact Table.Wf.set (h.row y) x v
    · exact h.2 p hp

end Sys2Proof.Machine
end

