-- ==== Sys2Proof/Laws/Bounds.lean ====
section
/-! SUPPORT. The size of each memory: which places the operations write, and that writes keep a memory of its size. -/

namespace Sys2Proof.Machine

theorem Below.set {α : Type} [DecidableEq α] {d : α} {n k : Nat} {t : Table α} (h : Below n t) (hk : k < n) (v : α) :
    Below n (Table.set d t k v) := by
  intro p hp
  unfold Table.set at hp
  split at hp
  · exact h p (List.mem_filter.1 hp).1
  · rcases Table.mem_insert hp with rfl | hp
    · exact hk
    · exact h p hp

theorem Memory.Sized.write {n k : Nat} {m : Memory} (h : m.Sized n) (hk : k < n) (v : Byte) : (m.write k v).Sized n :=
  ⟨Memory.wf.write h.1 _ _, Below.set h.2 hk v⟩

theorem Grid.Screen.set {α : Type} [DecidableEq α] {d : α} {g : Grid α} (h : Grid.Screen d g) {y x : Nat} (hy : y < 240)
    (hx : x < 256) (v : α) : Grid.Screen d (Grid.set d g y x v) := by
  refine ⟨h.1.set y x v, Below.set h.2.1 hy _, fun p hp => ?_⟩
  have row : Below 256 (Table.get [] g y) := by
    by_cases e : Table.get [] g y = []
    · rw [e]; intro p hp; simp at hp
    · exact h.2.2 _ (Table.mem_of_get_ne e)
  unfold Grid.set at hp
  rw [Table.set] at hp
  split at hp
  · exact h.2.2 p (List.mem_filter.1 hp).1
  · rcases Table.mem_insert hp with rfl | hp
    · exact Below.set row hx v
    · exact h.2.2 p hp

theorem Grid.Screen.nil {α : Type} [DecidableEq α] (d : α) : Grid.Screen d ([] : Grid α) :=
  ⟨Grid.Wf.nil d, fun p hp => by simp at hp, fun p hp => by simp at hp⟩

/-- A nametable address reaches a place in the 2 KiB of nametable RAM, whatever the mirroring (R73). -/
theorem ciramPlace_lt (s : State) (a : Nat) : ciramPlace s a < 0x800 := by
  unfold ciramPlace mirrorOf; dsimp only; split <;> omega

/-- A palette address reaches one of the 32 entries (R74). -/
theorem palIndex_lt (a : Nat) : palIndex a < 32 := by unfold palIndex; dsimp only; split <;> omega

/-- What holds of every page holds after one page is changed by what keeps it. -/
theorem forall_mem_modify {P : Memory → Prop} {l : List Memory} (h : ∀ m ∈ l, P m) (k : Nat) {f : Memory → Memory}
    (hf : ∀ m, P m → P (f m)) : ∀ m ∈ l.modify k f, P m := by
  intro m hm
  obtain ⟨i, hi, rfl⟩ := List.mem_iff_getElem.1 hm
  rw [List.getElem_modify]
  have hi' : i < l.length := by simpa using hi
  split
  · exact hf _ (h _ (List.getElem_mem hi'))
  · exact h _ (List.getElem_mem hi')

/-! ## The sprite-pixel buffer and the attribute cache -/

theorem paintSpriteColumn_screen {attrs xs hi lo : Byte} {isZero : Bool} {sy c : Nat} {buf : Grid (Option SpritePixel)}
    (hs : sy < 240) (hb : Grid.Screen none buf) : Grid.Screen none (paintSpriteColumn attrs xs hi lo isZero sy c buf) := by
  unfold paintSpriteColumn; dsimp only
  generalize patternPixel hi lo _ = pix
  split
  · exact hb
  · exact Grid.Screen.set hb hs (by omega) _

theorem foldl_preserves {α β : Type} {P : β → Prop} {f : β → α → β} (hf : ∀ b a, P b → P (f b a)) :
    ∀ (l : List α) (b : β), P b → P (l.foldl f b)
  | [], _, h => h
  | a :: l, b, h => foldl_preserves hf l _ (hf b a h)

theorem paintSpriteRow_screen {s : State} {i h r : Nat} {buf : Grid (Option SpritePixel)} (hb : Grid.Screen none buf) :
    Grid.Screen none (paintSpriteRow s i h r buf) := by
  unfold paintSpriteRow; dsimp only
  split
  · exact hb
  · exact foldl_preserves (fun b c hb => paintSpriteColumn_screen (by omega) hb) _ _ hb

theorem paintSprite_screen {s : State} {i : Nat} {buf : Grid (Option SpritePixel)} (hb : Grid.Screen none buf) :
    Grid.Screen none (paintSprite s i buf) :=
  foldl_preserves (fun _ _ hb => paintSpriteRow_screen hb) _ _ hb

/-- The sprite-pixel buffer is a canonical grid of the screen's size (R38, R220). -/
theorem computeSprites_screen (s : State) : Grid.Screen none (computeSprites s) := by
  unfold computeSprites
  generalize List.range 64 = l
  induction l with
  | nil => exact Grid.Screen.nil none
  | cons i l ih => exact paintSprite_screen ih

/-- The attribute cache is a canonical table of 2048 entries (R39, R219). -/
theorem computeAttrCache_sized (ciram : Memory) :
    Table.Wf 0 (computeAttrCache ciram) ∧ Below 2048 (computeAttrCache ciram) :=
  ⟨Table.Wf.ofValues _ _ _, fun p hp => by
    have := Table.lt_of_mem_ofValues hp
    simpa using this⟩

end Sys2Proof.Machine
end

