-- ==== Sys2Proof/Laws/State.lean ====
section
/-! SUPPORT. The fields of State after each of its updates: one lemma per field per update. -/

namespace Sys2Proof.Machine

/-! `State.withCpu` -/

@[simp] theorem State.withCpu_cpu (s : State) (c : Cpu) : (s.withCpu c).cpu = c := rfl
@[simp] theorem State.withCpu_ppu (s : State) (c : Cpu) : (s.withCpu c).ppu = s.ppu := rfl
@[simp] theorem State.withCpu_apu (s : State) (c : Cpu) : (s.withCpu c).apu = s.apu := rfl
@[simp] theorem State.withCpu_loaded (s : State) (c : Cpu) : (s.withCpu c).loaded = s.loaded := rfl
@[simp] theorem State.withCpu_cart (s : State) (c : Cpu) : (s.withCpu c).cart = s.cart := rfl
@[simp] theorem State.withCpu_mapper (s : State) (c : Cpu) : (s.withCpu c).mapper = s.mapper := rfl
@[simp] theorem State.withCpu_win (s : State) (c : Cpu) : (s.withCpu c).win = s.win := rfl
@[simp] theorem State.withCpu_sram (s : State) (c : Cpu) : (s.withCpu c).sram = s.sram := rfl
@[simp] theorem State.withCpu_ram (s : State) (c : Cpu) : (s.withCpu c).ram = s.ram := rfl
@[simp] theorem State.withCpu_latch (s : State) (c : Cpu) : (s.withCpu c).latch = s.latch := rfl
@[simp] theorem State.withCpu_clock (s : State) (c : Cpu) : (s.withCpu c).clock = s.clock := rfl
@[simp] theorem State.withCpu_pads (s : State) (c : Cpu) : (s.withCpu c).pads = s.pads := rfl
@[simp] theorem State.withCpu_batch (s : State) (c : Cpu) : (s.withCpu c).batch = s.batch := rfl
@[simp] theorem State.withCpu_fault (s : State) (c : Cpu) : (s.withCpu c).fault = s.fault := rfl
@[simp] theorem State.withCpu_draws (s : State) (c : Cpu) : (s.withCpu c).draws = s.draws := rfl
@[simp] theorem State.withCpu_out (s : State) (c : Cpu) : (s.withCpu c).out = s.out := rfl

/-! `State.setPc` -/

@[simp] theorem State.setPc_cpu (s : State) (a : Word) : (s.setPc a).cpu = { s.cpu with pc := a } := rfl
@[simp] theorem State.setPc_ppu (s : State) (a : Word) : (s.setPc a).ppu = s.ppu := rfl
@[simp] theorem State.setPc_apu (s : State) (a : Word) : (s.setPc a).apu = s.apu := rfl
@[simp] theorem State.setPc_loaded (s : State) (a : Word) : (s.setPc a).loaded = s.loaded := rfl
@[simp] theorem State.setPc_cart (s : State) (a : Word) : (s.setPc a).cart = s.cart := rfl
@[simp] theorem State.setPc_mapper (s : State) (a : Word) : (s.setPc a).mapper = s.mapper := rfl
@[simp] theorem State.setPc_win (s : State) (a : Word) : (s.setPc a).win = s.win := rfl
@[simp] theorem State.setPc_sram (s : State) (a : Word) : (s.setPc a).sram = s.sram := rfl
@[simp] theorem State.setPc_ram (s : State) (a : Word) : (s.setPc a).ram = s.ram := rfl
@[simp] theorem State.setPc_latch (s : State) (a : Word) : (s.setPc a).latch = s.latch := rfl
@[simp] theorem State.setPc_clock (s : State) (a : Word) : (s.setPc a).clock = s.clock := rfl
@[simp] theorem State.setPc_pads (s : State) (a : Word) : (s.setPc a).pads = s.pads := rfl
@[simp] theorem State.setPc_batch (s : State) (a : Word) : (s.setPc a).batch = s.batch := rfl
@[simp] theorem State.setPc_fault (s : State) (a : Word) : (s.setPc a).fault = s.fault := rfl
@[simp] theorem State.setPc_draws (s : State) (a : Word) : (s.setPc a).draws = s.draws := rfl
@[simp] theorem State.setPc_out (s : State) (a : Word) : (s.setPc a).out = s.out := rfl

/-! `State.withPpu` -/

@[simp] theorem State.withPpu_cpu (s : State) (p : Ppu) : (s.withPpu p).cpu = s.cpu := rfl
@[simp] theorem State.withPpu_ppu (s : State) (p : Ppu) : (s.withPpu p).ppu = p := rfl
@[simp] theorem State.withPpu_apu (s : State) (p : Ppu) : (s.withPpu p).apu = s.apu := rfl
@[simp] theorem State.withPpu_loaded (s : State) (p : Ppu) : (s.withPpu p).loaded = s.loaded := rfl
@[simp] theorem State.withPpu_cart (s : State) (p : Ppu) : (s.withPpu p).cart = s.cart := rfl
@[simp] theorem State.withPpu_mapper (s : State) (p : Ppu) : (s.withPpu p).mapper = s.mapper := rfl
@[simp] theorem State.withPpu_win (s : State) (p : Ppu) : (s.withPpu p).win = s.win := rfl
@[simp] theorem State.withPpu_sram (s : State) (p : Ppu) : (s.withPpu p).sram = s.sram := rfl
@[simp] theorem State.withPpu_ram (s : State) (p : Ppu) : (s.withPpu p).ram = s.ram := rfl
@[simp] theorem State.withPpu_latch (s : State) (p : Ppu) : (s.withPpu p).latch = s.latch := rfl
@[simp] theorem State.withPpu_clock (s : State) (p : Ppu) : (s.withPpu p).clock = s.clock := rfl
@[simp] theorem State.withPpu_pads (s : State) (p : Ppu) : (s.withPpu p).pads = s.pads := rfl
@[simp] theorem State.withPpu_batch (s : State) (p : Ppu) : (s.withPpu p).batch = s.batch := rfl
@[simp] theorem State.withPpu_fault (s : State) (p : Ppu) : (s.withPpu p).fault = s.fault := rfl
@[simp] theorem State.withPpu_draws (s : State) (p : Ppu) : (s.withPpu p).draws = s.draws := rfl
@[simp] theorem State.withPpu_out (s : State) (p : Ppu) : (s.withPpu p).out = s.out := rfl

/-! `State.withApu` -/

@[simp] theorem State.withApu_cpu (s : State) (a : Apu) : (s.withApu a).cpu = s.cpu := rfl
@[simp] theorem State.withApu_ppu (s : State) (a : Apu) : (s.withApu a).ppu = s.ppu := rfl
@[simp] theorem State.withApu_apu (s : State) (a : Apu) : (s.withApu a).apu = a := rfl
@[simp] theorem State.withApu_loaded (s : State) (a : Apu) : (s.withApu a).loaded = s.loaded := rfl
@[simp] theorem State.withApu_cart (s : State) (a : Apu) : (s.withApu a).cart = s.cart := rfl
@[simp] theorem State.withApu_mapper (s : State) (a : Apu) : (s.withApu a).mapper = s.mapper := rfl
@[simp] theorem State.withApu_win (s : State) (a : Apu) : (s.withApu a).win = s.win := rfl
@[simp] theorem State.withApu_sram (s : State) (a : Apu) : (s.withApu a).sram = s.sram := rfl
@[simp] theorem State.withApu_ram (s : State) (a : Apu) : (s.withApu a).ram = s.ram := rfl
@[simp] theorem State.withApu_latch (s : State) (a : Apu) : (s.withApu a).latch = s.latch := rfl
@[simp] theorem State.withApu_clock (s : State) (a : Apu) : (s.withApu a).clock = s.clock := rfl
@[simp] theorem State.withApu_pads (s : State) (a : Apu) : (s.withApu a).pads = s.pads := rfl
@[simp] theorem State.withApu_batch (s : State) (a : Apu) : (s.withApu a).batch = s.batch := rfl
@[simp] theorem State.withApu_fault (s : State) (a : Apu) : (s.withApu a).fault = s.fault := rfl
@[simp] theorem State.withApu_draws (s : State) (a : Apu) : (s.withApu a).draws = s.draws := rfl
@[simp] theorem State.withApu_out (s : State) (a : Apu) : (s.withApu a).out = s.out := rfl

/-! `State.owe` -/

@[simp] theorem State.owe_cpu (s : State) (n : Nat) : (s.owe n).cpu = s.cpu := rfl
@[simp] theorem State.owe_ppu (s : State) (n : Nat) : (s.owe n).ppu = s.ppu := rfl
@[simp] theorem State.owe_apu (s : State) (n : Nat) : (s.owe n).apu = s.apu := rfl
@[simp] theorem State.owe_loaded (s : State) (n : Nat) : (s.owe n).loaded = s.loaded := rfl
@[simp] theorem State.owe_cart (s : State) (n : Nat) : (s.owe n).cart = s.cart := rfl
@[simp] theorem State.owe_mapper (s : State) (n : Nat) : (s.owe n).mapper = s.mapper := rfl
@[simp] theorem State.owe_win (s : State) (n : Nat) : (s.owe n).win = s.win := rfl
@[simp] theorem State.owe_sram (s : State) (n : Nat) : (s.owe n).sram = s.sram := rfl
@[simp] theorem State.owe_ram (s : State) (n : Nat) : (s.owe n).ram = s.ram := rfl
@[simp] theorem State.owe_latch (s : State) (n : Nat) : (s.owe n).latch = s.latch := rfl
@[simp] theorem State.owe_clock (s : State) (n : Nat) : (s.owe n).clock = { s.clock with deferred := s.clock.deferred + n } := rfl
@[simp] theorem State.owe_pads (s : State) (n : Nat) : (s.owe n).pads = s.pads := rfl
@[simp] theorem State.owe_batch (s : State) (n : Nat) : (s.owe n).batch = s.batch := rfl
@[simp] theorem State.owe_fault (s : State) (n : Nat) : (s.owe n).fault = s.fault := rfl
@[simp] theorem State.owe_draws (s : State) (n : Nat) : (s.owe n).draws = s.draws := rfl
@[simp] theorem State.owe_out (s : State) (n : Nat) : (s.owe n).out = s.out := rfl

/-! `raiseInterrupt` -/

@[simp] theorem raiseInterrupt_cpu (k : IntKind) (s : State) : (raiseInterrupt k s).cpu = s.cpu := rfl
@[simp] theorem raiseInterrupt_ppu (k : IntKind) (s : State) : (raiseInterrupt k s).ppu = s.ppu := rfl
@[simp] theorem raiseInterrupt_apu (k : IntKind) (s : State) : (raiseInterrupt k s).apu = s.apu := rfl
@[simp] theorem raiseInterrupt_loaded (k : IntKind) (s : State) : (raiseInterrupt k s).loaded = s.loaded := rfl
@[simp] theorem raiseInterrupt_cart (k : IntKind) (s : State) : (raiseInterrupt k s).cart = s.cart := rfl
@[simp] theorem raiseInterrupt_mapper (k : IntKind) (s : State) : (raiseInterrupt k s).mapper = s.mapper := rfl
@[simp] theorem raiseInterrupt_win (k : IntKind) (s : State) : (raiseInterrupt k s).win = s.win := rfl
@[simp] theorem raiseInterrupt_sram (k : IntKind) (s : State) : (raiseInterrupt k s).sram = s.sram := rfl
@[simp] theorem raiseInterrupt_ram (k : IntKind) (s : State) : (raiseInterrupt k s).ram = s.ram := rfl
@[simp] theorem raiseInterrupt_latch (k : IntKind) (s : State) : (raiseInterrupt k s).latch = s.latch.after k := rfl
@[simp] theorem raiseInterrupt_clock (k : IntKind) (s : State) : (raiseInterrupt k s).clock = s.clock := rfl
@[simp] theorem raiseInterrupt_pads (k : IntKind) (s : State) : (raiseInterrupt k s).pads = s.pads := rfl
@[simp] theorem raiseInterrupt_batch (k : IntKind) (s : State) : (raiseInterrupt k s).batch = s.batch := rfl
@[simp] theorem raiseInterrupt_fault (k : IntKind) (s : State) : (raiseInterrupt k s).fault = s.fault := rfl
@[simp] theorem raiseInterrupt_draws (k : IntKind) (s : State) : (raiseInterrupt k s).draws = s.draws := rfl
@[simp] theorem raiseInterrupt_out (k : IntKind) (s : State) : (raiseInterrupt k s).out = s.out := rfl

/-! `draw` -/

@[simp] theorem draw_cpu (s : State) : (draw s).2.cpu = s.cpu := rfl
@[simp] theorem draw_ppu (s : State) : (draw s).2.ppu = s.ppu := rfl
@[simp] theorem draw_apu (s : State) : (draw s).2.apu = s.apu := rfl
@[simp] theorem draw_loaded (s : State) : (draw s).2.loaded = s.loaded := rfl
@[simp] theorem draw_cart (s : State) : (draw s).2.cart = s.cart := rfl
@[simp] theorem draw_mapper (s : State) : (draw s).2.mapper = s.mapper := rfl
@[simp] theorem draw_win (s : State) : (draw s).2.win = s.win := rfl
@[simp] theorem draw_sram (s : State) : (draw s).2.sram = s.sram := rfl
@[simp] theorem draw_ram (s : State) : (draw s).2.ram = s.ram := rfl
@[simp] theorem draw_latch (s : State) : (draw s).2.latch = s.latch := rfl
@[simp] theorem draw_clock (s : State) : (draw s).2.clock = s.clock := rfl
@[simp] theorem draw_pads (s : State) : (draw s).2.pads = s.pads := rfl
@[simp] theorem draw_batch (s : State) : (draw s).2.batch = s.batch := rfl
@[simp] theorem draw_fault (s : State) : (draw s).2.fault = s.fault := rfl
@[simp] theorem draw_draws (s : State) : (draw s).2.draws = s.draws + 1 := rfl
@[simp] theorem draw_out (s : State) : (draw s).2.out = s.out := rfl

/-! `push` -/

@[simp] theorem push_cpu (v : Byte) (s : State) : (push v s).cpu = { s.cpu with s := s.cpu.s - 1 } := rfl
@[simp] theorem push_ppu (v : Byte) (s : State) : (push v s).ppu = s.ppu := rfl
@[simp] theorem push_apu (v : Byte) (s : State) : (push v s).apu = s.apu := rfl
@[simp] theorem push_loaded (v : Byte) (s : State) : (push v s).loaded = s.loaded := rfl
@[simp] theorem push_cart (v : Byte) (s : State) : (push v s).cart = s.cart := rfl
@[simp] theorem push_mapper (v : Byte) (s : State) : (push v s).mapper = s.mapper := rfl
@[simp] theorem push_win (v : Byte) (s : State) : (push v s).win = s.win := rfl
@[simp] theorem push_sram (v : Byte) (s : State) : (push v s).sram = s.sram := rfl
@[simp] theorem push_ram (v : Byte) (s : State) : (push v s).ram = s.ram.write (stackPlace s.cpu.s) v := rfl
@[simp] theorem push_latch (v : Byte) (s : State) : (push v s).latch = s.latch := rfl
@[simp] theorem push_clock (v : Byte) (s : State) : (push v s).clock = s.clock := rfl
@[simp] theorem push_pads (v : Byte) (s : State) : (push v s).pads = s.pads := rfl
@[simp] theorem push_batch (v : Byte) (s : State) : (push v s).batch = s.batch := rfl
@[simp] theorem push_fault (v : Byte) (s : State) : (push v s).fault = s.fault := rfl
@[simp] theorem push_draws (v : Byte) (s : State) : (push v s).draws = s.draws := rfl
@[simp] theorem push_out (v : Byte) (s : State) : (push v s).out = s.out := rfl

/-! `pull` -/

@[simp] theorem pull_cpu (s : State) : (pull s).2.cpu = { s.cpu with s := s.cpu.s + 1 } := rfl
@[simp] theorem pull_ppu (s : State) : (pull s).2.ppu = s.ppu := rfl
@[simp] theorem pull_apu (s : State) : (pull s).2.apu = s.apu := rfl
@[simp] theorem pull_loaded (s : State) : (pull s).2.loaded = s.loaded := rfl
@[simp] theorem pull_cart (s : State) : (pull s).2.cart = s.cart := rfl
@[simp] theorem pull_mapper (s : State) : (pull s).2.mapper = s.mapper := rfl
@[simp] theorem pull_win (s : State) : (pull s).2.win = s.win := rfl
@[simp] theorem pull_sram (s : State) : (pull s).2.sram = s.sram := rfl
@[simp] theorem pull_ram (s : State) : (pull s).2.ram = s.ram := rfl
@[simp] theorem pull_latch (s : State) : (pull s).2.latch = s.latch := rfl
@[simp] theorem pull_clock (s : State) : (pull s).2.clock = s.clock := rfl
@[simp] theorem pull_pads (s : State) : (pull s).2.pads = s.pads := rfl
@[simp] theorem pull_batch (s : State) : (pull s).2.batch = s.batch := rfl
@[simp] theorem pull_fault (s : State) : (pull s).2.fault = s.fault := rfl
@[simp] theorem pull_draws (s : State) : (pull s).2.draws = s.draws := rfl
@[simp] theorem pull_out (s : State) : (pull s).2.out = s.out := rfl

/-! `beginStep` -/

@[simp] theorem beginStep_cpu (s : State) : (beginStep s).cpu = s.cpu := rfl
@[simp] theorem beginStep_ppu (s : State) : (beginStep s).ppu = s.ppu := rfl
@[simp] theorem beginStep_apu (s : State) : (beginStep s).apu = s.apu := rfl
@[simp] theorem beginStep_loaded (s : State) : (beginStep s).loaded = s.loaded := rfl
@[simp] theorem beginStep_cart (s : State) : (beginStep s).cart = s.cart := rfl
@[simp] theorem beginStep_mapper (s : State) : (beginStep s).mapper = s.mapper := rfl
@[simp] theorem beginStep_win (s : State) : (beginStep s).win = s.win := rfl
@[simp] theorem beginStep_sram (s : State) : (beginStep s).sram = s.sram := rfl
@[simp] theorem beginStep_ram (s : State) : (beginStep s).ram = s.ram := rfl
@[simp] theorem beginStep_latch (s : State) : (beginStep s).latch = s.latch := rfl
@[simp] theorem beginStep_clock (s : State) : (beginStep s).clock = { s.clock with dmaCycles := 0 } := rfl
@[simp] theorem beginStep_pads (s : State) : (beginStep s).pads = s.pads := rfl
@[simp] theorem beginStep_batch (s : State) : (beginStep s).batch = s.batch := rfl
@[simp] theorem beginStep_fault (s : State) : (beginStep s).fault = s.fault := rfl
@[simp] theorem beginStep_draws (s : State) : (beginStep s).draws = s.draws := rfl
@[simp] theorem beginStep_out (s : State) : (beginStep s).out = Output.nothing := rfl

/-- The value of a draw is the free value at the counter (R15). -/
@[simp] theorem draw_fst (s : State) : (draw s).1 = Config.openBus s.draws := rfl

/-- The value of a pull is the byte above S in the stack page (R13). -/
@[simp] theorem pull_fst (s : State) : (pull s).1 = s.ram.read (stackPlace (s.cpu.s + 1)) := rfl

end Sys2Proof.Machine
end

