-- ==== Sys2Proof/Laws/Ops.lean ====
section
/-! SUPPORT. The shared operations: when a result goes on, the latch, the stack, and what an interrupt entry leaves alone. -/

namespace Sys2Proof.Machine

/-! ## Results -/

@[simp] theorem Res.ok_bind {α β : Type} (v : α) (s : State) (k : α → State → Res β) : (Res.ok v s).bind k = k v s := rfl

@[simp] theorem Res.stop_bind {α β : Type} (f : Fault) (k : α → State → Res β) : (Res.stop f : Res α).bind k = .stop f := rfl

@[simp] theorem Res.toOutcome_ok (s : State) : (Res.ok () s).toOutcome = .next s := rfl

@[simp] theorem Res.toOutcome_stop (f : Fault) : (Res.stop f).toOutcome = .fault f := rfl

/-- A sequence goes on exactly when both parts do. -/
theorem Res.bind_eq_ok {α β : Type} {r : Res α} {k : α → State → Res β} {v : β} {t : State} :
    r.bind k = .ok v t ↔ ∃ u s, r = .ok u s ∧ k u s = .ok v t := by
  cases r with
  | ok u s =>
    exact ⟨fun h => ⟨u, s, rfl, h⟩, fun ⟨_, _, e, h⟩ => by cases e; exact h⟩
  | stop f => simp [Res.bind]

/-- A sequence stops exactly when its first part does, or its second part after the first went on. -/
theorem Res.bind_eq_stop {α β : Type} {r : Res α} {k : α → State → Res β} {f : Fault} :
    r.bind k = .stop f ↔ r = .stop f ∨ ∃ u s, r = .ok u s ∧ k u s = .stop f := by
  cases r with
  | ok u s =>
    exact ⟨fun h => .inr ⟨u, s, rfl, h⟩, fun h => by
      rcases h with e | ⟨_, _, e, h⟩
      · cases e
      · cases e; exact h⟩
  | stop g => simp [Res.bind]

theorem Res.toOutcome_eq_next {r : Res Unit} {t : State} : r.toOutcome = .next t ↔ r = .ok () t := by
  cases r <;> simp [Res.toOutcome]

theorem Res.toOutcome_eq_fault {r : Res Unit} {f : Fault} : r.toOutcome = .fault f ↔ r = .stop f := by
  cases r <;> simp [Res.toOutcome]

theorem Res.toOutcome_ne_refused {r : Res Unit} {q : Refusal} : r.toOutcome ≠ .refused q := by
  cases r <;> simp [Res.toOutcome]

@[simp] theorem raise_ne_ok {α : Type} (r : Fatal) (s : State) (v : α) (t : State) : raise r s ≠ .ok v t := by simp [raise]

/-! ## The latch (R384) -/

theorem Latch.rank_inj {a b : Latch} (h : a.rank = b.rank) : a = b := by cases a <;> cases b <;> simp_all [Latch.rank]

/-- No raise but CancelNMI lowers the latch. -/
theorem Latch.rank_le_after (l : Latch) (k : IntKind) (h : k ≠ .cancelNmi) : l.rank ≤ (l.after k).rank := by
  cases l <;> cases k <;> simp_all [Latch.after, Latch.raised, Latch.rank]

/-- CancelNMI takes away a pending NMI and nothing else. -/
@[simp] theorem Latch.after_cancel (l : Latch) : l.after .cancelNmi = if l = .nmi then .none else l := rfl

@[simp] theorem Latch.after_none (l : Latch) : l.after .none = l := rfl

theorem raiseInterrupt_eq (k : IntKind) (s : State) : raiseInterrupt k s = { s with latch := s.latch.after k } := rfl

/-! ## The stack (R13, R21) -/

theorem stackPlace_lt (sp : Byte) : stackPlace sp < 0x800 := by have := sp.isLt; unfold stackPlace; omega

theorem stackPlace_inj {a b : Byte} (h : stackPlace a = stackPlace b) : a = b := by
  unfold stackPlace at h; exact BitVec.eq_of_toNat_eq (by omega)

theorem push_eq (v : Byte) (s : State) :
    push v s = { s with ram := s.ram.write (stackPlace s.cpu.s) v, cpu := { s.cpu with s := s.cpu.s - 1 } } := rfl

/-- A pull after a push gives the byte pushed. -/
theorem pull_push (v : Byte) (s : State) : (pull (push v s)).1 = v := by
  simp [BitVec.sub_add_cancel]

/-- A pull after a push leaves S as it was. -/
theorem pull_push_s (v : Byte) (s : State) : (pull (push v s)).2.cpu = s.cpu := by
  simp [BitVec.sub_add_cancel]

/-! ## Taking an interrupt and returning from it -/

/-- An interrupt entry changes the CPU, work RAM, the latch and the cycles owed, and nothing else. -/
theorem takeInterrupt_frame (vec : Word) (n : Nat) (s : State) :
    takeInterrupt vec n s =
      { s with cpu := (takeInterrupt vec n s).cpu, ram := (takeInterrupt vec n s).ram, latch := .none,
               clock := { s.clock with deferred := s.clock.deferred + n } } := rfl

/-- The Reset entry changes the CPU, the latch and the cycles owed, and nothing else. -/
theorem resetEntry_frame (s : State) :
    resetEntry s =
      { s with cpu := (resetEntry s).cpu, latch := .none, clock := { s.clock with deferred := s.clock.deferred + 7 } } := rfl

/-- The interrupt check changes the CPU, work RAM, the latch and the cycles owed, and nothing else. -/
theorem resolveInterrupt_frame (s : State) :
    resolveInterrupt s =
      { s with cpu := (resolveInterrupt s).cpu, ram := (resolveInterrupt s).ram, latch := (resolveInterrupt s).latch,
               clock := { s.clock with deferred := (resolveInterrupt s).clock.deferred } } := by
  unfold resolveInterrupt
  split
  · rfl
  · rfl
  · rfl
  · split <;> rfl

theorem resolveInterrupt_ram_wf {s : State} (h : s.ram.wf) : (resolveInterrupt s).ram.wf := by
  have hp : ∀ vec n, (takeInterrupt vec n s).ram.wf := fun vec n =>
    ((h.write _ _).write _ _).write _ _
  unfold resolveInterrupt
  split
  · exact h
  · exact h
  · exact hp _ _
  · split
    · exact h
    · exact hp _ _

end Sys2Proof.Machine
end

