-- ==== Sys2Proof/Laws/Bus.lean ====
section
/-! SUPPORT. What a bus read and a bus write can do, said once: which reads and writes go on, and which fields they leave
alone. -/

namespace Sys2Proof.Machine

/-! ## Regions -/

theorem regionOf_workRam {a : Word} (h : a.toNat < 0x2000) : regionOf a = .workRam := by simp [regionOf, h]

theorem regionOf_ppuRegs {a : Word} (h : 0x2000 ≤ a.toNat) (h' : a.toNat < 0x4000) : regionOf a = .ppuRegs := by
  unfold regionOf; rw [if_neg (by omega), if_pos h']

theorem regionOf_io {a : Word} (h : 0x4000 ≤ a.toNat) (h' : a.toNat < 0x4018) : regionOf a = .io := by
  unfold regionOf; rw [if_neg (by omega), if_neg (by omega), if_pos h']

theorem regionOf_unmapped {a : Word} (h : 0x4018 ≤ a.toNat) (h' : a.toNat < 0x6000) : regionOf a = .unmapped := by
  unfold regionOf; rw [if_neg (by omega), if_neg (by omega), if_neg (by omega), if_pos h']

theorem regionOf_sram {a : Word} (h : 0x6000 ≤ a.toNat) (h' : a.toNat < 0x8000) : regionOf a = .sram := by
  unfold regionOf; rw [if_neg (by omega), if_neg (by omega), if_neg (by omega), if_neg (by omega), if_pos h']

theorem regionOf_prg {a : Word} (h : 0x8000 ≤ a.toNat) : regionOf a = .prg := by
  unfold regionOf
  rw [if_neg (by omega), if_neg (by omega), if_neg (by omega), if_neg (by omega), if_neg (by omega)]

theorem regionOf_zeroPage (b : Byte) : regionOf (b.zeroExtend 16) = .workRam := by
  apply regionOf_workRam; have := b.isLt; simp; omega

theorem ramPlace_lt (a : Word) : ramPlace a < 0x800 := Nat.mod_lt _ (by decide)

theorem sramPlace_lt {a : Word} (h : regionOf a = .sram) : sramPlace a < 0x2000 := by
  have ha := a.isLt
  unfold regionOf at h
  unfold sramPlace
  split at h <;> try cases h
  split at h <;> try cases h
  split at h <;> try cases h
  split at h <;> try cases h
  split at h <;> try cases h
  omega

/-! ## Reads -/

/-- A read of memory gives its byte and has no effect (R62, R78). -/
theorem memRead_of_byteAt {s : State} {a : Word} {b : Byte} (h : s.byteAt a = some b) : memRead a s = .ok b s := by
  unfold State.byteAt at h
  unfold memRead
  split at h <;> simp_all

theorem memRead_unmapped {a : Word} (h : regionOf a = .unmapped) (s : State) :
    memRead a s = raise (.busUnmappedRead a) s := by simp [memRead, h]

/-- A read of a device register at 0x4000-0x4017, by its offset (R66). -/
theorem memRead_io {a : Word} {r : Nat} (ha : a.toNat = 0x4000 + r) (hr : r < 0x18) (s : State) :
    memRead a s = answered (ioRead r s) := by
  rw [memRead, regionOf_io (by omega) (by omega)]; dsimp only; rw [ha, Nat.add_sub_cancel_left]

/-- A write of a device register at 0x4000-0x4017, by its offset (R66). -/
theorem memWrite_io {a : Word} {r : Nat} (ha : a.toNat = 0x4000 + r) (hr : r < 0x18) (v : Byte) (s : State) :
    memWrite a v s = ioWrite r v s := by
  rw [memWrite, regionOf_io (by omega) (by omega)]; dsimp only; rw [ha, Nat.add_sub_cancel_left]

/-- Every read but one of 0x4018-0x5FFF goes on (R62, R67). -/
theorem memRead_mapped {a : Word} (h : regionOf a ≠ .unmapped) (s : State) : ∃ v t, memRead a s = .ok v t := by
  unfold memRead answered
  split
  all_goals first | exact ⟨_, _, rfl⟩ | contradiction

/-- What a read may change: the PPU's VBL, w, inhibit, buffer and v, the APU's frame flag, the latch, the controllers' shift
registers and the draw counter. -/
def ReadFrame (s t : State) : Prop :=
  t = { s with
        ppu := { s.ppu with vbl := t.ppu.vbl, w := t.ppu.w, nmiInhibit := t.ppu.nmiInhibit, buffer := t.ppu.buffer,
                            v := t.ppu.v }
        apu := { s.apu with frame := { s.apu.frame with frameIrq := t.apu.frame.frameIrq } }
        latch := t.latch
        pads := { s.pads with pad0 := { s.pads.pad0 with shift := t.pads.pad0.shift },
                              pad1 := { s.pads.pad1 with shift := t.pads.pad1.shift } }
        draws := t.draws } ∧
  (t.latch = s.latch ∨ (s.latch = .nmi ∧ t.latch = .none)) ∧
  (t.ppu.vbl = true → s.ppu.vbl = true)

theorem ReadFrame.refl (s : State) : ReadFrame s s := ⟨rfl, .inl rfl, id⟩

theorem ppuRead_frame (a : PpuAddr) (s : State) : (ppuRead a s).2 = { s with draws := (ppuRead a s).2.draws } := by
  unfold ppuRead; split
  · rfl
  · split <;> rfl

theorem readPpuStatus_frame (s : State) : ReadFrame s (readPpuStatus s).2 := by
  refine ⟨rfl, ?_, by simp [readPpuStatus]⟩
  simp only [readPpuStatus, raiseInterrupt_latch, State.withPpu_latch, draw_latch]
  split
  · rw [Latch.after_cancel]; split
    · rename_i h; exact .inr ⟨h, rfl⟩
    · exact .inl rfl
  · exact .inl rfl

theorem readPpuData_frame (s : State) : ReadFrame s (readPpuData s).2 := by
  unfold readPpuData
  simp only
  split
  · have h := ppuRead_frame s.ppu.vramPlace s
    generalize ppuRead s.ppu.vramPlace s = r at h ⊢
    rw [h]; exact ⟨rfl, .inl rfl, id⟩
  · have h := ppuRead_frame s.ppu.vramPlace s
    generalize ppuRead s.ppu.vramPlace s = r at h ⊢
    have h' := ppuRead_frame (s.ppu.vramPlace - 0x1000) r.2
    generalize ppuRead (s.ppu.vramPlace - 0x1000) r.2 = q at h' ⊢
    rw [h', h]; exact ⟨rfl, .inl rfl, id⟩

theorem ppuRegRead_frame (r : Nat) (s : State) : ReadFrame s (ppuRegRead r s).2 := by
  unfold ppuRegRead; split
  · exact readPpuStatus_frame s
  · exact ReadFrame.refl s
  · exact readPpuData_frame s
  · exact ⟨rfl, .inl rfl, id⟩

theorem readPad_shifted (p : Pad) (b : Bool) : p.shifted b = { p with shift := (p.shifted b).shift } := by
  unfold Pad.shifted; split <;> rfl

theorem ioRead_frame (r : Nat) (s : State) : ReadFrame s (ioRead r s).2 := by
  unfold ioRead; split
  · exact ⟨rfl, .inl rfl, id⟩
  · refine ⟨?_, .inl rfl, id⟩
    show ({ s with pads := { s.pads with pad0 := s.pads.pad0.shifted s.pads.strobe }, draws := s.draws + 1 } : State) = _
    rw [readPad_shifted]; rfl
  · refine ⟨?_, .inl rfl, id⟩
    show ({ s with pads := { s.pads with pad1 := s.pads.pad1.shifted s.pads.strobe }, draws := s.draws + 1 } : State) = _
    rw [readPad_shifted]; rfl
  · exact ⟨rfl, .inl rfl, id⟩

theorem answered_eq_ok {r : Byte × State} {v : Byte} {t : State} (h : answered r = .ok v t) : t = r.2 :=
  (Res.ok.inj h).2.symm

/-- Everything a bus read can do to the state. -/
theorem memRead_frame {a : Word} {s t : State} {v : Byte} (h : memRead a s = .ok v t) : ReadFrame s t := by
  unfold memRead at h
  split at h
  · cases h; exact ReadFrame.refl s
  · rw [answered_eq_ok h]; exact ppuRegRead_frame _ s
  · rw [answered_eq_ok h]; exact ioRead_frame _ s
  · exact absurd h (raise_ne_ok _ _ _ _)
  · cases h; exact ReadFrame.refl s
  · cases h; exact ReadFrame.refl s

theorem memRead_cpu {a : Word} {s t : State} {v : Byte} (h : memRead a s = .ok v t) : t.cpu = s.cpu := by
  rw [(memRead_frame h).1]

/-- A read changes no byte of memory. -/
theorem memRead_byteAt {a : Word} {s t : State} {v : Byte} (h : memRead a s = .ok v t) (b : Word) : t.byteAt b = s.byteAt b := by
  rw [(memRead_frame h).1]; rfl

/-! ## Reads through the stack page, the zero page and the vectors are bus reads (R13, R79, R80) -/

theorem memRead_zeroPage (s : State) (b : Byte) : memRead (b.zeroExtend 16) s = .ok (s.ram.read b.toNat) s := by
  have h : ramPlace (b.zeroExtend 16) = b.toNat := by have := b.isLt; unfold ramPlace; simp; omega
  simp only [memRead, regionOf_zeroPage, h]

theorem stackAddress_toNat (sp : Byte) : (stackAddress sp).toNat = stackPlace sp := by
  have := Nat.two_pow_add_eq_or_of_lt (i := 8) sp.isLt 1
  simp only [stackAddress, stackPlace, BitVec.toNat_or, BitVec.truncate_eq_setWidth, BitVec.toNat_setWidth]
  have e : sp.toNat % 2 ^ 16 = sp.toNat := by have := sp.isLt; omega
  rw [e]; exact this.symm

theorem regionOf_stack (sp : Byte) : regionOf (stackAddress sp) = .workRam := by
  apply regionOf_workRam; rw [stackAddress_toNat]; have := stackPlace_lt sp; omega

theorem ramPlace_stack (sp : Byte) : ramPlace (stackAddress sp) = stackPlace sp := by
  unfold ramPlace; rw [stackAddress_toNat]; exact Nat.mod_eq_of_lt (stackPlace_lt sp)

theorem memWrite_stack (sp v : Byte) (s : State) :
    memWrite (stackAddress sp) v s = .ok () { s with ram := s.ram.write (stackPlace sp) v } := by
  simp only [memWrite, regionOf_stack, ramPlace_stack]

theorem memRead_stack (sp : Byte) (s : State) : memRead (stackAddress sp) s = .ok (s.ram.read (stackPlace sp)) s := by
  simp only [memRead, regionOf_stack, ramPlace_stack]

/-- A push is a bus write at `0x0100 | S`, then `S - 1` (R13). -/
theorem push_eq_memWrite (v : Byte) (s : State) :
    (memWrite (stackAddress s.cpu.s) v s).bind
      (fun _ t => .ok () (t.withCpu { t.cpu with s := t.cpu.s - 1 })) = .ok () (push v s) := by
  rw [memWrite_stack]; rfl

/-- A pull is `S + 1`, then a bus read at `0x0100 | S` (R13). -/
theorem pull_eq_memRead (s : State) :
    memRead (stackAddress (s.cpu.s + 1)) (s.withCpu { s.cpu with s := s.cpu.s + 1 }) = .ok (pull s).1 (pull s).2 := by
  rw [memRead_stack]; rfl

/-- The two bytes of a vector are bus reads without effect (R13, R79). -/
theorem memRead_prg {a : Word} (h : regionOf a = .prg) (s : State) : memRead a s = .ok (prgRead s a) s := by
  simp only [memRead, h]

/-! ## Writes -/

/-- What a write may change: everything but the CPU, ROM, the load, the buttons, the clock's accumulators, the batch, the
fault and the output. -/
def WriteFrame (s t : State) : Prop :=
  t = { s with
        ppu := t.ppu, apu := t.apu, cart := { s.cart with chr := t.cart.chr }, mapper := t.mapper, win := t.win,
        sram := t.sram, ram := t.ram, latch := t.latch,
        clock := { s.clock with deferred := t.clock.deferred, dmaCycles := t.clock.dmaCycles }
        pads := { pad0 := { s.pads.pad0 with shift := t.pads.pad0.shift },
                  pad1 := { s.pads.pad1 with shift := t.pads.pad1.shift }, strobe := t.pads.strobe }
        draws := t.draws }

theorem WriteFrame.refl (s : State) : WriteFrame s s := rfl

theorem WriteFrame.trans {s t u : State} (h : WriteFrame s t) (h' : WriteFrame t u) : WriteFrame s u := by
  unfold WriteFrame at h h' ⊢; rw [h'] ; rw [h]

theorem ReadFrame.write {s t : State} (h : ReadFrame s t) : WriteFrame s t := by
  unfold WriteFrame; rw [h.1]

/-- Everything the DMC reader's check can do, as a read and an update of the DMC (R276). -/
theorem dmcReaderCheck_cases {s t : State} (h : dmcReaderCheck s = .ok () t) :
    ((s.apu.dmc.bufferFull = true ∨ s.apu.dmc.bytesLeft = 0) ∧ t = s) ∨
    (s.apu.dmc.bufferFull = false ∧ s.apu.dmc.bytesLeft ≠ 0 ∧ ∃ b u, memRead s.apu.dmc.curAddr s = .ok b u ∧
      t = raiseInterrupt (if u.apu.dmc.irqDue then .irqBrk else .none)
        ((u.withApu { u.apu with dmc := u.apu.dmc.fetched b }).owe 4)) := by
  unfold dmcReaderCheck at h
  split at h
  · rename_i hc
    obtain ⟨b, u, hr, hk⟩ := Res.bind_eq_ok.1 h
    cases hk
    exact .inr ⟨hc.1, hc.2, b, u, hr, rfl⟩
  · rename_i hc
    cases h
    refine .inl ⟨?_, rfl⟩
    by_cases hb : s.apu.dmc.bufferFull = true
    · exact .inl hb
    · exact .inr (Classical.not_not.1 fun e => hc ⟨by simpa using hb, e⟩)

theorem dmcReaderCheck_frame {s t : State} (h : dmcReaderCheck s = .ok () t) : WriteFrame s t := by
  rcases dmcReaderCheck_cases h with ⟨-, rfl⟩ | ⟨-, -, b, u, hr, rfl⟩
  · exact WriteFrame.refl _
  · have := (memRead_frame hr).1
    unfold WriteFrame
    rw [this]; rfl

/-- One more byte of an OAM DMA keeps what each single copy keeps. -/
theorem oamDmaCopy_preserves (P : State → Prop) (page : Byte)
    (hread : ∀ {a v s t}, memRead a s = .ok v t → P s → P t)
    (hoam : ∀ {s} (a : Nat) (b : Byte), P s → P (s.withPpu { s.ppu with oam := s.ppu.oam.write a b }))
    {n : Nat} {s t : State} (h : oamDmaCopy page n s = .ok () t) (hs : P s) : P t := by
  induction n generalizing s with
  | zero => cases h; exact hs
  | succ n ih =>
    obtain ⟨b, u, hr, hk⟩ := Res.bind_eq_ok.1 h
    exact ih hk (hoam _ _ (hread hr hs))

theorem oamDma_frame {page : Byte} {s t : State} (h : oamDma page s = .ok () t) : WriteFrame s t := by
  obtain ⟨_, u, hr, hk⟩ := Res.bind_eq_ok.1 h
  have hu : WriteFrame s u := oamDmaCopy_preserves (WriteFrame s) page
    (fun hr hs => hs.trans (memRead_frame hr).write) (fun a b hs => hs.trans rfl) hr (WriteFrame.refl s)
  cases hk
  exact hu.trans rfl

theorem writeStrobe_pads (p : Pads) (v : Byte) :
    p.writeStrobe v = { pad0 := { p.pad0 with shift := (p.writeStrobe v).pad0.shift },
                        pad1 := { p.pad1 with shift := (p.writeStrobe v).pad1.shift }, strobe := (p.writeStrobe v).strobe } := by
  unfold Pads.writeStrobe; split <;> rfl

theorem ioWrite_frame {r : Nat} {v : Byte} {s t : State} (h : ioWrite r v s = .ok () t) : WriteFrame s t := by
  unfold ioWrite at h
  split at h
  · exact oamDma_frame h
  · unfold writeApuEnables at h
    simp only at h
    split at h
    · exact WriteFrame.trans (t := s.withApu (s.apu.writeEnables v)) rfl (dmcReaderCheck_frame h)
    · cases h; rfl
  · cases h
    show _ = _
    simp only
    rw [← writeStrobe_pads]
  · cases h; rfl
  · cases h; rfl

theorem ppuWrite_cases {a : PpuAddr} {v : Byte} {s t : State} (h : ppuWrite a v s = .ok () t) :
    (a.toNat < 0x2000 ∧ s.cart.chrIsRam = true ∧
      t = { s with cart := { s.cart with chr := s.cart.chr.modify (chrPageOf s a.toNat) (fun m => m.write (a.toNat % 0x400) v) } }) ∨
    (0x2000 ≤ a.toNat ∧ a.toNat < 0x3F00 ∧
      t = s.withPpu { s.ppu with ciram := s.ppu.ciram.write (ciramPlace s a.toNat) v }) ∨
    (0x3F00 ≤ a.toNat ∧
      t = s.withPpu { s.ppu with pal := Table.set 0 s.ppu.pal (palIndex a.toNat) (v.extractLsb 5 0) }) := by
  unfold ppuWrite at h
  split at h
  · rename_i ha
    unfold writeChr at h
    split at h
    · rename_i hc; cases h; exact .inl ⟨ha, hc, rfl⟩
    · exact absurd h (raise_ne_ok _ _ _ _)
  · split at h
    · cases h; exact .inr (.inl ⟨by omega, by assumption, rfl⟩)
    · cases h; exact .inr (.inr ⟨by omega, rfl⟩)

theorem ppuRegWrite_frame {r : Nat} {v : Byte} {s t : State} (h : ppuRegWrite r v s = .ok () t) : WriteFrame s t := by
  unfold ppuRegWrite at h
  split at h
  all_goals first | (cases h; rfl) | skip
  obtain ⟨_, u, hr, hk⟩ := Res.bind_eq_ok.1 h
  cases hk
  rcases ppuWrite_cases hr with ⟨-, -, rfl⟩ | ⟨-, -, rfl⟩ | ⟨-, rfl⟩ <;> rfl

/-- Everything a mapper register write that goes on can do: the registers change and the windows stay, or both change and no
window names a missing page (R326, R327). -/
theorem mapperWrite_cases {a : Word} {v : Byte} {s t : State} (h : mapperWrite a v s = .ok () t) :
    (∃ m, s.mapper.write a v = .keepWindows m ∧ t = { s with mapper := m }) ∨
    (∃ m, s.mapper.write a v = .recompute m ∧
      (m.windows s.cart.prgPages).overflow s.cart.prgPages s.cart.chrPages = none ∧
      t = { s with mapper := m, win := m.windows s.cart.prgPages }) := by
  unfold mapperWrite at h
  split at h
  · exact absurd h (raise_ne_ok _ _ _ _)
  · rename_i m hm; cases h; exact .inl ⟨m, hm, rfl⟩
  · rename_i m hm
    split at h
    · exact absurd h (raise_ne_ok _ _ _ _)
    · rename_i ho; cases h; exact .inr ⟨m, hm, ho, rfl⟩

/-- Everything a bus write can do to the state. -/
theorem memWrite_frame {a : Word} {v : Byte} {s t : State} (h : memWrite a v s = .ok () t) : WriteFrame s t := by
  unfold memWrite at h
  split at h
  · cases h; rfl
  · exact ppuRegWrite_frame h
  · exact ioWrite_frame h
  · exact absurd h (raise_ne_ok _ _ _ _)
  · cases h; rfl
  · rcases mapperWrite_cases h with ⟨m, -, rfl⟩ | ⟨m, -, -, rfl⟩ <;> rfl

theorem memWrite_cpu {a : Word} {v : Byte} {s t : State} (h : memWrite a v s = .ok () t) : t.cpu = s.cpu := by
  rw [memWrite_frame h]

end Sys2Proof.Machine
end

