-- ==== Sys2Proof/Laws/Decode.lean ====
section
/-! SUPPORT. Words and their bytes (R11, R75). -/

namespace Sys2Proof

/-! ## A word is its two bytes (R11) -/

theorem hiByte_toNat (w : Word) : (hiByte w).toNat = w.toNat / 256 := by
  have := w.isLt
  unfold hiByte
  rw [BitVec.extractLsb'_toNat, Nat.shiftRight_eq_div_pow]; omega

theorem loByte_toNat (w : Word) : (loByte w).toNat = w.toNat % 256 := by
  unfold loByte
  rw [BitVec.extractLsb'_toNat, Nat.shiftRight_eq_div_pow]; omega

theorem wordOf_toNat (hi lo : Byte) : (wordOf hi lo).toNat = hi.toNat * 256 + lo.toNat := by
  have := lo.isLt
  unfold wordOf
  rw [BitVec.toNat_append, ← Nat.shiftLeft_add_eq_or_of_lt (by omega), Nat.shiftLeft_eq]

theorem wordOf_bytes (w : Word) : wordOf (hiByte w) (loByte w) = w := by
  apply BitVec.eq_of_toNat_eq; rw [wordOf_toNat, hiByte_toNat, loByte_toNat]; omega

theorem hiByte_wordOf (hi lo : Byte) : hiByte (wordOf hi lo) = hi := by
  have := lo.isLt
  apply BitVec.eq_of_toNat_eq; rw [hiByte_toNat, wordOf_toNat]; omega

theorem loByte_wordOf (hi lo : Byte) : loByte (wordOf hi lo) = lo := by
  have := lo.isLt
  apply BitVec.eq_of_toNat_eq; rw [loByte_toNat, wordOf_toNat]; omega

end Sys2Proof
end

