-- ==== Sys2Proof/Laws/Exec.lean ====
section
/-! SUPPORT. What an instruction can do, said once: the seven shapes an instruction's meaning can have, what each keeps, and
from them what every instruction keeps. -/

namespace Sys2Proof.Machine

/-! ## The flag operations leave the break state alone -/

theorem Cpu.setNZ_brk (c : Cpu) (v : Byte) : (c.setNZ v).brk = c.brk := rfl

theorem Cpu.setStatus_brk (c : Cpu) (m : Byte) : (c.setStatus m).brk = c.brk := rfl

/-! ## The shapes -/

/-- The meaning changes the CPU alone, without touching the break state. -/
def OnCpu (i : Instr) : Prop :=
  ∃ g : State → Cpu, (∀ s, exec i s = .next (s.withCpu (g s))) ∧ ∀ s, (g s).brk = s.cpu.brk

/-- The meaning is of the read class. -/
def OnRead (i : Instr) : Prop :=
  ∃ m f, (∀ s, exec i s = readInstr m f s) ∧ ∀ c v, (f c v).brk = c.brk

/-- The meaning is of the write class. -/
def OnStore (i : Instr) : Prop := ∃ m v, ∀ s, exec i s = storeInstr m v s

/-- The meaning is of the read-modify-write class. -/
def OnModify (i : Instr) : Prop := ∃ m f, ∀ s, exec i s = modifyInstr m f s

/-- The meaning pushes a byte of the CPU's. -/
def OnPush (i : Instr) : Prop := ∃ v : Cpu → Byte, ∀ s, exec i s = .next (push (v s.cpu) s)

theorem OnCpu.imm {i : Instr} (b : Byte) (f : Cpu → Byte → Cpu) (h : ∀ s, exec i s = immInstr b f s)
    (hf : ∀ c v, (f c v).brk = c.brk) : OnCpu i :=
  ⟨fun s => f s.cpu b, h, fun s => hf s.cpu b⟩

theorem OnCpu.acc {i : Instr} (f : Cpu → Byte → Modified) (h : ∀ s, exec i s = accInstr f s) : OnCpu i :=
  ⟨fun s => (s.cpu.withCarry (f s.cpu s.cpu.a)).loadA (f s.cpu s.cpu.a).result, h, fun _ => rfl⟩

theorem OnCpu.reg {i : Instr} (f : Cpu → Cpu) (h : ∀ s, exec i s = cpuInstr f s) (hf : ∀ c, (f c).brk = c.brk) : OnCpu i :=
  ⟨fun s => f s.cpu, h, fun s => hf s.cpu⟩

theorem OnCpu.branch {i : Instr} (cond : Cpu → Bool) (b : Byte) (h : ∀ s, exec i s = branchInstr cond b s) : OnCpu i := by
  refine ⟨fun s => if cond s.cpu then { s.cpu with pc := s.cpu.pc + sext b } else s.cpu, fun s => ?_, fun s => ?_⟩
  · rw [h]; unfold branchInstr
    by_cases hc : cond s.cpu = true <;> simp only [hc] <;> rfl
  · dsimp only; split <;> rfl

/-- Every instruction but JMP indirect, JSR and BRK has one of the five shapes. -/
theorem exec_shape (i : Instr) :
    OnCpu i ∨ OnRead i ∨ OnStore i ∨ OnModify i ∨ OnPush i ∨ (∃ w, i = .jmpInd w) ∨ (∃ w, i = .jsrAbs w) ∨ i = .brk :=
  match i with
  | .ldaImm b1 => .inl (OnCpu.imm b1 Cpu.loadA (fun _ => rfl) fun _ _ => rfl)
  | .ldaZp b1 => .inr (.inl ⟨(.zp b1), Cpu.loadA, fun _ => rfl, fun _ _ => rfl⟩)
  | .ldaZpX b1 => .inr (.inl ⟨(.zpX b1), Cpu.loadA, fun _ => rfl, fun _ _ => rfl⟩)
  | .ldaAbs w => .inr (.inl ⟨(.abs w), Cpu.loadA, fun _ => rfl, fun _ _ => rfl⟩)
  | .ldaAbsX w => .inr (.inl ⟨(.absX w), Cpu.loadA, fun _ => rfl, fun _ _ => rfl⟩)
  | .ldaAbsY w => .inr (.inl ⟨(.absY w), Cpu.loadA, fun _ => rfl, fun _ _ => rfl⟩)
  | .ldaIndX b1 => .inr (.inl ⟨(.indX b1), Cpu.loadA, fun _ => rfl, fun _ _ => rfl⟩)
  | .ldaIndY b1 => .inr (.inl ⟨(.indY b1), Cpu.loadA, fun _ => rfl, fun _ _ => rfl⟩)
  | .ldxImm b1 => .inl (OnCpu.imm b1 Cpu.loadX (fun _ => rfl) fun _ _ => rfl)
  | .ldxZp b1 => .inr (.inl ⟨(.zp b1), Cpu.loadX, fun _ => rfl, fun _ _ => rfl⟩)
  | .ldxZpY b1 => .inr (.inl ⟨(.zpY b1), Cpu.loadX, fun _ => rfl, fun _ _ => rfl⟩)
  | .ldxAbs w => .inr (.inl ⟨(.abs w), Cpu.loadX, fun _ => rfl, fun _ _ => rfl⟩)
  | .ldxAbsY w => .inr (.inl ⟨(.absY w), Cpu.loadX, fun _ => rfl, fun _ _ => rfl⟩)
  | .ldyImm b1 => .inl (OnCpu.imm b1 Cpu.loadY (fun _ => rfl) fun _ _ => rfl)
  | .ldyZp b1 => .inr (.inl ⟨(.zp b1), Cpu.loadY, fun _ => rfl, fun _ _ => rfl⟩)
  | .ldyZpX b1 => .inr (.inl ⟨(.zpX b1), Cpu.loadY, fun _ => rfl, fun _ _ => rfl⟩)
  | .ldyAbs w => .inr (.inl ⟨(.abs w), Cpu.loadY, fun _ => rfl, fun _ _ => rfl⟩)
  | .ldyAbsX w => .inr (.inl ⟨(.absX w), Cpu.loadY, fun _ => rfl, fun _ _ => rfl⟩)
  | .staZp b1 => .inr (.inr (.inl ⟨(.zp b1), Cpu.a, fun _ => rfl⟩))
  | .staZpX b1 => .inr (.inr (.inl ⟨(.zpX b1), Cpu.a, fun _ => rfl⟩))
  | .staAbs w => .inr (.inr (.inl ⟨(.abs w), Cpu.a, fun _ => rfl⟩))
  | .staAbsX w => .inr (.inr (.inl ⟨(.absX w), Cpu.a, fun _ => rfl⟩))
  | .staAbsY w => .inr (.inr (.inl ⟨(.absY w), Cpu.a, fun _ => rfl⟩))
  | .staIndX b1 => .inr (.inr (.inl ⟨(.indX b1), Cpu.a, fun _ => rfl⟩))
  | .staIndY b1 => .inr (.inr (.inl ⟨(.indY b1), Cpu.a, fun _ => rfl⟩))
  | .stxZp b1 => .inr (.inr (.inl ⟨(.zp b1), Cpu.x, fun _ => rfl⟩))
  | .stxZpY b1 => .inr (.inr (.inl ⟨(.zpY b1), Cpu.x, fun _ => rfl⟩))
  | .stxAbs w => .inr (.inr (.inl ⟨(.abs w), Cpu.x, fun _ => rfl⟩))
  | .styZp b1 => .inr (.inr (.inl ⟨(.zp b1), Cpu.y, fun _ => rfl⟩))
  | .styZpX b1 => .inr (.inr (.inl ⟨(.zpX b1), Cpu.y, fun _ => rfl⟩))
  | .styAbs w => .inr (.inr (.inl ⟨(.abs w), Cpu.y, fun _ => rfl⟩))
  | .tax => .inl (OnCpu.reg (fun c => c.loadX c.a) (fun _ => rfl) fun _ => rfl)
  | .tay => .inl (OnCpu.reg (fun c => c.loadY c.a) (fun _ => rfl) fun _ => rfl)
  | .txa => .inl (OnCpu.reg (fun c => c.loadA c.x) (fun _ => rfl) fun _ => rfl)
  | .tya => .inl (OnCpu.reg (fun c => c.loadA c.y) (fun _ => rfl) fun _ => rfl)
  | .tsx => .inl (OnCpu.reg (fun c => c.loadX c.s) (fun _ => rfl) fun _ => rfl)
  | .txs => .inl (OnCpu.reg (fun c => { c with s := c.x }) (fun _ => rfl) fun _ => rfl)
  | .adcImm b1 => .inl (OnCpu.imm b1 Cpu.adc (fun _ => rfl) fun _ _ => rfl)
  | .adcZp b1 => .inr (.inl ⟨(.zp b1), Cpu.adc, fun _ => rfl, fun _ _ => rfl⟩)
  | .adcZpX b1 => .inr (.inl ⟨(.zpX b1), Cpu.adc, fun _ => rfl, fun _ _ => rfl⟩)
  | .adcAbs w => .inr (.inl ⟨(.abs w), Cpu.adc, fun _ => rfl, fun _ _ => rfl⟩)
  | .adcAbsX w => .inr (.inl ⟨(.absX w), Cpu.adc, fun _ => rfl, fun _ _ => rfl⟩)
  | .adcAbsY w => .inr (.inl ⟨(.absY w), Cpu.adc, fun _ => rfl, fun _ _ => rfl⟩)
  | .adcIndX b1 => .inr (.inl ⟨(.indX b1), Cpu.adc, fun _ => rfl, fun _ _ => rfl⟩)
  | .adcIndY b1 => .inr (.inl ⟨(.indY b1), Cpu.adc, fun _ => rfl, fun _ _ => rfl⟩)
  | .sbcImm b1 => .inl (OnCpu.imm b1 Cpu.sbc (fun _ => rfl) fun _ _ => rfl)
  | .sbcZp b1 => .inr (.inl ⟨(.zp b1), Cpu.sbc, fun _ => rfl, fun _ _ => rfl⟩)
  | .sbcZpX b1 => .inr (.inl ⟨(.zpX b1), Cpu.sbc, fun _ => rfl, fun _ _ => rfl⟩)
  | .sbcAbs w => .inr (.inl ⟨(.abs w), Cpu.sbc, fun _ => rfl, fun _ _ => rfl⟩)
  | .sbcAbsX w => .inr (.inl ⟨(.absX w), Cpu.sbc, fun _ => rfl, fun _ _ => rfl⟩)
  | .sbcAbsY w => .inr (.inl ⟨(.absY w), Cpu.sbc, fun _ => rfl, fun _ _ => rfl⟩)
  | .sbcIndX b1 => .inr (.inl ⟨(.indX b1), Cpu.sbc, fun _ => rfl, fun _ _ => rfl⟩)
  | .sbcIndY b1 => .inr (.inl ⟨(.indY b1), Cpu.sbc, fun _ => rfl, fun _ _ => rfl⟩)
  | .andImm b1 => .inl (OnCpu.imm b1 Cpu.andA (fun _ => rfl) fun _ _ => rfl)
  | .andZp b1 => .inr (.inl ⟨(.zp b1), Cpu.andA, fun _ => rfl, fun _ _ => rfl⟩)
  | .andZpX b1 => .inr (.inl ⟨(.zpX b1), Cpu.andA, fun _ => rfl, fun _ _ => rfl⟩)
  | .andAbs w => .inr (.inl ⟨(.abs w), Cpu.andA, fun _ => rfl, fun _ _ => rfl⟩)
  | .andAbsX w => .inr (.inl ⟨(.absX w), Cpu.andA, fun _ => rfl, fun _ _ => rfl⟩)
  | .andAbsY w => .inr (.inl ⟨(.absY w), Cpu.andA, fun _ => rfl, fun _ _ => rfl⟩)
  | .andIndX b1 => .inr (.inl ⟨(.indX b1), Cpu.andA, fun _ => rfl, fun _ _ => rfl⟩)
  | .andIndY b1 => .inr (.inl ⟨(.indY b1), Cpu.andA, fun _ => rfl, fun _ _ => rfl⟩)
  | .oraImm b1 => .inl (OnCpu.imm b1 Cpu.orA (fun _ => rfl) fun _ _ => rfl)
  | .oraZp b1 => .inr (.inl ⟨(.zp b1), Cpu.orA, fun _ => rfl, fun _ _ => rfl⟩)
  | .oraZpX b1 => .inr (.inl ⟨(.zpX b1), Cpu.orA, fun _ => rfl, fun _ _ => rfl⟩)
  | .oraAbs w => .inr (.inl ⟨(.abs w), Cpu.orA, fun _ => rfl, fun _ _ => rfl⟩)
  | .oraAbsX w => .inr (.inl ⟨(.absX w), Cpu.orA, fun _ => rfl, fun _ _ => rfl⟩)
  | .oraAbsY w => .inr (.inl ⟨(.absY w), Cpu.orA, fun _ => rfl, fun _ _ => rfl⟩)
  | .oraIndX b1 => .inr (.inl ⟨(.indX b1), Cpu.orA, fun _ => rfl, fun _ _ => rfl⟩)
  | .oraIndY b1 => .inr (.inl ⟨(.indY b1), Cpu.orA, fun _ => rfl, fun _ _ => rfl⟩)
  | .eorImm b1 => .inl (OnCpu.imm b1 Cpu.eorA (fun _ => rfl) fun _ _ => rfl)
  | .eorZp b1 => .inr (.inl ⟨(.zp b1), Cpu.eorA, fun _ => rfl, fun _ _ => rfl⟩)
  | .eorZpX b1 => .inr (.inl ⟨(.zpX b1), Cpu.eorA, fun _ => rfl, fun _ _ => rfl⟩)
  | .eorAbs w => .inr (.inl ⟨(.abs w), Cpu.eorA, fun _ => rfl, fun _ _ => rfl⟩)
  | .eorAbsX w => .inr (.inl ⟨(.absX w), Cpu.eorA, fun _ => rfl, fun _ _ => rfl⟩)
  | .eorAbsY w => .inr (.inl ⟨(.absY w), Cpu.eorA, fun _ => rfl, fun _ _ => rfl⟩)
  | .eorIndX b1 => .inr (.inl ⟨(.indX b1), Cpu.eorA, fun _ => rfl, fun _ _ => rfl⟩)
  | .eorIndY b1 => .inr (.inl ⟨(.indY b1), Cpu.eorA, fun _ => rfl, fun _ _ => rfl⟩)
  | .cmpImm b1 => .inl (OnCpu.imm b1 Cpu.cmp (fun _ => rfl) fun _ _ => rfl)
  | .cmpZp b1 => .inr (.inl ⟨(.zp b1), Cpu.cmp, fun _ => rfl, fun _ _ => rfl⟩)
  | .cmpZpX b1 => .inr (.inl ⟨(.zpX b1), Cpu.cmp, fun _ => rfl, fun _ _ => rfl⟩)
  | .cmpAbs w => .inr (.inl ⟨(.abs w), Cpu.cmp, fun _ => rfl, fun _ _ => rfl⟩)
  | .cmpAbsX w => .inr (.inl ⟨(.absX w), Cpu.cmp, fun _ => rfl, fun _ _ => rfl⟩)
  | .cmpAbsY w => .inr (.inl ⟨(.absY w), Cpu.cmp, fun _ => rfl, fun _ _ => rfl⟩)
  | .cmpIndX b1 => .inr (.inl ⟨(.indX b1), Cpu.cmp, fun _ => rfl, fun _ _ => rfl⟩)
  | .cmpIndY b1 => .inr (.inl ⟨(.indY b1), Cpu.cmp, fun _ => rfl, fun _ _ => rfl⟩)
  | .cpxImm b1 => .inl (OnCpu.imm b1 Cpu.cpx (fun _ => rfl) fun _ _ => rfl)
  | .cpxZp b1 => .inr (.inl ⟨(.zp b1), Cpu.cpx, fun _ => rfl, fun _ _ => rfl⟩)
  | .cpxAbs w => .inr (.inl ⟨(.abs w), Cpu.cpx, fun _ => rfl, fun _ _ => rfl⟩)
  | .cpyImm b1 => .inl (OnCpu.imm b1 Cpu.cpy (fun _ => rfl) fun _ _ => rfl)
  | .cpyZp b1 => .inr (.inl ⟨(.zp b1), Cpu.cpy, fun _ => rfl, fun _ _ => rfl⟩)
  | .cpyAbs w => .inr (.inl ⟨(.abs w), Cpu.cpy, fun _ => rfl, fun _ _ => rfl⟩)
  | .bitZp b1 => .inr (.inl ⟨(.zp b1), Cpu.bit, fun _ => rfl, fun _ _ => rfl⟩)
  | .bitAbs w => .inr (.inl ⟨(.abs w), Cpu.bit, fun _ => rfl, fun _ _ => rfl⟩)
  | .incZp b1 => .inr (.inr (.inr (.inl ⟨(.zp b1), modInc, fun _ => rfl⟩)))
  | .incZpX b1 => .inr (.inr (.inr (.inl ⟨(.zpX b1), modInc, fun _ => rfl⟩)))
  | .incAbs w => .inr (.inr (.inr (.inl ⟨(.abs w), modInc, fun _ => rfl⟩)))
  | .incAbsX w => .inr (.inr (.inr (.inl ⟨(.absX w), modInc, fun _ => rfl⟩)))
  | .decZp b1 => .inr (.inr (.inr (.inl ⟨(.zp b1), modDec, fun _ => rfl⟩)))
  | .decZpX b1 => .inr (.inr (.inr (.inl ⟨(.zpX b1), modDec, fun _ => rfl⟩)))
  | .decAbs w => .inr (.inr (.inr (.inl ⟨(.abs w), modDec, fun _ => rfl⟩)))
  | .decAbsX w => .inr (.inr (.inr (.inl ⟨(.absX w), modDec, fun _ => rfl⟩)))
  | .inx => .inl (OnCpu.reg (fun c => c.loadX (c.x + 1)) (fun _ => rfl) fun _ => rfl)
  | .iny => .inl (OnCpu.reg (fun c => c.loadY (c.y + 1)) (fun _ => rfl) fun _ => rfl)
  | .dex => .inl (OnCpu.reg (fun c => c.loadX (c.x - 1)) (fun _ => rfl) fun _ => rfl)
  | .dey => .inl (OnCpu.reg (fun c => c.loadY (c.y - 1)) (fun _ => rfl) fun _ => rfl)
  | .aslAcc => .inl (OnCpu.acc modAsl fun _ => rfl)
  | .aslZp b1 => .inr (.inr (.inr (.inl ⟨(.zp b1), modAsl, fun _ => rfl⟩)))
  | .aslZpX b1 => .inr (.inr (.inr (.inl ⟨(.zpX b1), modAsl, fun _ => rfl⟩)))
  | .aslAbs w => .inr (.inr (.inr (.inl ⟨(.abs w), modAsl, fun _ => rfl⟩)))
  | .aslAbsX w => .inr (.inr (.inr (.inl ⟨(.absX w), modAsl, fun _ => rfl⟩)))
  | .lsrAcc => .inl (OnCpu.acc modLsr fun _ => rfl)
  | .lsrZp b1 => .inr (.inr (.inr (.inl ⟨(.zp b1), modLsr, fun _ => rfl⟩)))
  | .lsrZpX b1 => .inr (.inr (.inr (.inl ⟨(.zpX b1), modLsr, fun _ => rfl⟩)))
  | .lsrAbs w => .inr (.inr (.inr (.inl ⟨(.abs w), modLsr, fun _ => rfl⟩)))
  | .lsrAbsX w => .inr (.inr (.inr (.inl ⟨(.absX w), modLsr, fun _ => rfl⟩)))
  | .rolAcc => .inl (OnCpu.acc modRol fun _ => rfl)
  | .rolZp b1 => .inr (.inr (.inr (.inl ⟨(.zp b1), modRol, fun _ => rfl⟩)))
  | .rolZpX b1 => .inr (.inr (.inr (.inl ⟨(.zpX b1), modRol, fun _ => rfl⟩)))
  | .rolAbs w => .inr (.inr (.inr (.inl ⟨(.abs w), modRol, fun _ => rfl⟩)))
  | .rolAbsX w => .inr (.inr (.inr (.inl ⟨(.absX w), modRol, fun _ => rfl⟩)))
  | .rorAcc => .inl (OnCpu.acc modRor fun _ => rfl)
  | .rorZp b1 => .inr (.inr (.inr (.inl ⟨(.zp b1), modRor, fun _ => rfl⟩)))
  | .rorZpX b1 => .inr (.inr (.inr (.inl ⟨(.zpX b1), modRor, fun _ => rfl⟩)))
  | .rorAbs w => .inr (.inr (.inr (.inl ⟨(.abs w), modRor, fun _ => rfl⟩)))
  | .rorAbsX w => .inr (.inr (.inr (.inl ⟨(.absX w), modRor, fun _ => rfl⟩)))
  | .bccRel b1 => .inl (OnCpu.branch (fun c => !c.c) b1 fun _ => rfl)
  | .bcsRel b1 => .inl (OnCpu.branch (fun c => c.c) b1 fun _ => rfl)
  | .beqRel b1 => .inl (OnCpu.branch (fun c => c.z) b1 fun _ => rfl)
  | .bneRel b1 => .inl (OnCpu.branch (fun c => !c.z) b1 fun _ => rfl)
  | .bmiRel b1 => .inl (OnCpu.branch (fun c => c.n) b1 fun _ => rfl)
  | .bplRel b1 => .inl (OnCpu.branch (fun c => !c.n) b1 fun _ => rfl)
  | .bvcRel b1 => .inl (OnCpu.branch (fun c => !c.v) b1 fun _ => rfl)
  | .bvsRel b1 => .inl (OnCpu.branch (fun c => c.v) b1 fun _ => rfl)
  | .jmpAbs w => .inl ⟨fun s => { s.cpu with pc := w }, fun _ => rfl, fun _ => rfl⟩
  | .jmpInd w => .inr (.inr (.inr (.inr (.inr (.inl ⟨w, rfl⟩)))))
  | .jsrAbs w => .inr (.inr (.inr (.inr (.inr (.inr (.inl ⟨w, rfl⟩))))))
  | .rts => .inl ⟨fun s => { s.cpu with s := s.cpu.s + 1 + 1, pc := (pullWord s).1 + 1 }, fun _ => rfl, fun _ => rfl⟩
  | .brk => .inr (.inr (.inr (.inr (.inr (.inr (.inr rfl))))))
  | .rti => .inl ⟨fun s => (returnFromInterrupt s).cpu, fun _ => rfl, fun _ => rfl⟩
  | .pha => .inr (.inr (.inr (.inr (.inl ⟨fun c => c.a, fun _ => rfl⟩))))
  | .php => .inr (.inr (.inr (.inr (.inl ⟨fun c => c.status true, fun _ => rfl⟩))))
  | .pla => .inl ⟨fun s => ({ s.cpu with s := s.cpu.s + 1 } : Cpu).loadA (pull s).1, fun _ => rfl, fun _ => rfl⟩
  | .plp => .inl ⟨fun s => ({ s.cpu with s := s.cpu.s + 1 } : Cpu).setStatus (pull s).1, fun _ => rfl, fun _ => rfl⟩
  | .clc => .inl (OnCpu.reg (fun c => { c with c := false }) (fun _ => rfl) fun _ => rfl)
  | .sec => .inl (OnCpu.reg (fun c => { c with c := true }) (fun _ => rfl) fun _ => rfl)
  | .cli => .inl (OnCpu.reg (fun c => { c with i := false }) (fun _ => rfl) fun _ => rfl)
  | .sei => .inl (OnCpu.reg (fun c => { c with i := true }) (fun _ => rfl) fun _ => rfl)
  | .cld => .inl (OnCpu.reg (fun c => { c with d := false }) (fun _ => rfl) fun _ => rfl)
  | .sed => .inl (OnCpu.reg (fun c => { c with d := true }) (fun _ => rfl) fun _ => rfl)
  | .clv => .inl (OnCpu.reg (fun c => { c with v := false }) (fun _ => rfl) fun _ => rfl)
  | .nop => .inl (OnCpu.reg (fun c => c) (fun _ => rfl) fun _ => rfl)

/-! ## What goes on, by shape -/

theorem readInstr_eq_next {m : Mode} {f : Cpu → Byte → Cpu} {s t : State} :
    readInstr m f s = .next t ↔
      ∃ v u, memRead (effectiveAddress m s) s = .ok v u ∧ t = u.withCpu (f u.cpu v) := by
  unfold readInstr
  rw [Res.toOutcome_eq_next, Res.bind_eq_ok]
  constructor
  · rintro ⟨v, u, hr, hk⟩; cases hk; exact ⟨v, u, hr, rfl⟩
  · rintro ⟨v, u, hr, rfl⟩; exact ⟨v, u, hr, rfl⟩

theorem storeInstr_eq_next {m : Mode} {v : Cpu → Byte} {s t : State} :
    storeInstr m v s = .next t ↔ memWrite (effectiveAddress m s) (v s.cpu) s = .ok () t := by
  unfold storeInstr; rw [Res.toOutcome_eq_next]

theorem modifyInstr_eq_next {m : Mode} {f : Cpu → Byte → Modified} {s t : State} :
    modifyInstr m f s = .next t ↔
      ∃ v u w, memRead (effectiveAddress m s) s = .ok v u ∧
        memWrite (effectiveAddress m s) (f u.cpu v).result (u.withCpu (u.cpu.withCarry (f u.cpu v))) = .ok () w ∧
        t = w.withCpu (w.cpu.setNZ (f u.cpu v).result) := by
  unfold modifyInstr
  rw [Res.toOutcome_eq_next, Res.bind_eq_ok]
  constructor
  · rintro ⟨v, u, hr, hk⟩
    obtain ⟨_, w, hw, hk⟩ := Res.bind_eq_ok.1 hk
    cases hk; exact ⟨v, u, w, hr, hw, rfl⟩
  · rintro ⟨v, u, w, hr, hw, rfl⟩
    exact ⟨v, u, hr, Res.bind_eq_ok.2 ⟨(), w, hw, rfl⟩⟩

theorem execJmpInd_eq_next {w : Word} {s t : State} :
    exec (.jmpInd w) s = .next t ↔
      ∃ lo u hi v, memRead w s = .ok lo u ∧ memRead (pointerHighAddress w) u = .ok hi v ∧ t = v.setPc (wordOf hi lo) := by
  show ((memRead w s).bind _).toOutcome = .next t ↔ _
  rw [Res.toOutcome_eq_next, Res.bind_eq_ok]
  constructor
  · rintro ⟨lo, u, hr, hk⟩
    obtain ⟨hi, v, hr', hk⟩ := Res.bind_eq_ok.1 hk
    cases hk; exact ⟨lo, u, hi, v, hr, hr', rfl⟩
  · rintro ⟨lo, u, hi, v, hr, hr', rfl⟩
    exact ⟨lo, u, hr, Res.bind_eq_ok.2 ⟨hi, v, hr', rfl⟩⟩

/-- What changes of the CPU, bus reads, bus writes and the raise of a BRK keep, every instruction keeps. -/
theorem exec_preserves (P : State → Prop)
    (hcpu : ∀ {s} (c : Cpu), P s → P (s.withCpu c))
    (hread : ∀ {a v s t}, memRead a s = .ok v t → P s → P t)
    (hwrite : ∀ {a v s t}, memWrite a v s = .ok () t → P s → P t)
    (hint : ∀ {s}, P s → P (raiseInterrupt .irqBrk s))
    {i : Instr} {s t : State} (h : exec i s = .next t) (hs : P s) : P t := by
  have hpush : ∀ {s} (v : Byte), P s → P (push v s) := fun {s} v hs =>
    hcpu _ (hwrite (memWrite_stack s.cpu.s v s) hs)
  rcases exec_shape i with ⟨g, e, -⟩ | ⟨m, f, e, -⟩ | ⟨m, v, e⟩ | ⟨m, f, e⟩ | ⟨v, e⟩ | ⟨w, rfl⟩ | ⟨w, rfl⟩ | rfl
  · rw [e] at h; cases h; exact hcpu _ hs
  · rw [e, readInstr_eq_next] at h
    obtain ⟨v, u, hr, rfl⟩ := h; exact hcpu _ (hread hr hs)
  · rw [e, storeInstr_eq_next] at h; exact hwrite h hs
  · rw [e, modifyInstr_eq_next] at h
    obtain ⟨v, u, w, hr, hw, rfl⟩ := h
    exact hcpu _ (hwrite hw (hcpu _ (hread hr hs)))
  · rw [e] at h; cases h; exact hpush _ hs
  · obtain ⟨lo, u, hi, v, hr, hr', rfl⟩ := execJmpInd_eq_next.1 h
    exact hcpu _ (hread hr' (hread hr hs))
  · cases h; exact hcpu _ (hpush _ (hpush _ hs))
  · cases h; exact hint (hcpu _ hs)

/-- An instruction is never refused: each has a meaning. -/
theorem exec_ne_refused (i : Instr) (s : State) (q : Refusal) : exec i s ≠ .refused q := by
  rcases exec_shape i with ⟨g, e, -⟩ | ⟨m, f, e, -⟩ | ⟨m, v, e⟩ | ⟨m, f, e⟩ | ⟨v, e⟩ | ⟨w, rfl⟩ | ⟨w, rfl⟩ | rfl
  · rw [e]; intro h; cases h
  · rw [e]; exact Res.toOutcome_ne_refused
  · rw [e]; exact Res.toOutcome_ne_refused
  · rw [e]; exact Res.toOutcome_ne_refused
  · rw [e]; intro h; cases h
  · exact Res.toOutcome_ne_refused
  · intro h; cases h
  · intro h; cases h

end Sys2Proof.Machine
end

