-- ==== Sys2Proof/Laws/Mapper.lean ====
section
/-! SUPPORT. The window check and a register write of the mapper, said once (R326 to R329). -/

namespace Sys2Proof.Machine

theorem mem_allWindows (k : Window) : k ∈ allWindows := by
  cases k <;> simp [allWindows]

theorem Windows.misses_iff {w : Windows} {n c : Nat} (k : Window) : w.misses n c k = true ↔ w.Lacks n c k := by
  cases k <;> simp [Windows.misses, Windows.Lacks]

/-- The window that the check finds names a page that is missing. -/
theorem Windows.overflow_lacks {w : Windows} {n c : Nat} {k : Window} (h : w.overflow n c = some k) : w.Lacks n c k :=
  (Windows.misses_iff k).1 (List.find?_some h)

theorem Windows.fit_iff {w : Windows} {n c : Nat} : w.Fit n c ↔ ∀ k, ¬ w.Lacks n c k := by
  constructor
  · rintro ⟨hp, hc⟩ (i | i)
    · exact Nat.not_le.2 (hp i i.isLt)
    · exact Nat.not_le.2 (hc i i.isLt)
  · intro h
    exact ⟨fun i hi => Nat.not_le.1 (h (.prg ⟨i, hi⟩)), fun i hi => Nat.not_le.1 (h (.chr ⟨i, hi⟩))⟩

/-- The check finds nothing exactly where every window names a page that exists. -/
theorem Windows.overflow_eq_none {w : Windows} {n c : Nat} : w.overflow n c = none ↔ w.Fit n c := by
  rw [Windows.fit_iff, Windows.overflow, List.find?_eq_none]
  exact ⟨fun h k => fun hk => h k (mem_allWindows k) ((Windows.misses_iff k).2 hk),
    fun h k _ hk => h k ((Windows.misses_iff k).1 hk)⟩

/-- Everything a register write that recomputes the windows can do, from the bus down. -/
theorem memWrite_takes {s : State} {a : Word} {v : Byte} {m : Mapper} (ha : 0x8000 ≤ a.toNat)
    (h : s.mapper.write a v = .recompute m) : MapperTakes s a v m := by
  have hr : memWrite a v s = mapperWrite a v s := by
    have : regionOf a = .prg := by
      unfold regionOf
      rw [if_neg (by omega), if_neg (by omega), if_neg (by omega), if_neg (by omega), if_neg (by omega)]
    unfold memWrite; rw [this]
  rw [MapperTakes, hr, mapperWrite, h]
  constructor
  · intro hf
    dsimp only
    rw [Windows.overflow_eq_none.2 hf]
  · intro hf
    dsimp only
    split
    · rename_i k hk; exact ⟨k, Windows.overflow_lacks hk, rfl⟩
    · rename_i hn; exact absurd (Windows.overflow_eq_none.1 hn) hf

end Sys2Proof.Machine
end

