-- ==== Sys2Proof/Laws/PerInstr.lean ====
section
/-! SUPPORT. Statements made per instruction, about the instruction as syntax. -/

namespace Sys2Proof.Laws.Encoding

/-- The bytes of an instruction pass the check of well-formed encodings: a legal opcode and the operand bytes its place in
the map asks for (R90, R105, R106). -/
def Statement (i : Instr) : Prop := encodingWellFormed (encode i) = true

theorem ldaImm (b1 : Byte) : Statement (.ldaImm b1) := rfl

theorem ldaZp (b1 : Byte) : Statement (.ldaZp b1) := rfl

theorem ldaZpX (b1 : Byte) : Statement (.ldaZpX b1) := rfl

theorem ldaAbs (w : Word) : Statement (.ldaAbs w) := rfl

theorem ldaAbsX (w : Word) : Statement (.ldaAbsX w) := rfl

theorem ldaAbsY (w : Word) : Statement (.ldaAbsY w) := rfl

theorem ldaIndX (b1 : Byte) : Statement (.ldaIndX b1) := rfl

theorem ldaIndY (b1 : Byte) : Statement (.ldaIndY b1) := rfl

theorem ldxImm (b1 : Byte) : Statement (.ldxImm b1) := rfl

theorem ldxZp (b1 : Byte) : Statement (.ldxZp b1) := rfl

theorem ldxZpY (b1 : Byte) : Statement (.ldxZpY b1) := rfl

theorem ldxAbs (w : Word) : Statement (.ldxAbs w) := rfl

theorem ldxAbsY (w : Word) : Statement (.ldxAbsY w) := rfl

theorem ldyImm (b1 : Byte) : Statement (.ldyImm b1) := rfl

theorem ldyZp (b1 : Byte) : Statement (.ldyZp b1) := rfl

theorem ldyZpX (b1 : Byte) : Statement (.ldyZpX b1) := rfl

theorem ldyAbs (w : Word) : Statement (.ldyAbs w) := rfl

theorem ldyAbsX (w : Word) : Statement (.ldyAbsX w) := rfl

theorem staZp (b1 : Byte) : Statement (.staZp b1) := rfl

theorem staZpX (b1 : Byte) : Statement (.staZpX b1) := rfl

theorem staAbs (w : Word) : Statement (.staAbs w) := rfl

theorem staAbsX (w : Word) : Statement (.staAbsX w) := rfl

theorem staAbsY (w : Word) : Statement (.staAbsY w) := rfl

theorem staIndX (b1 : Byte) : Statement (.staIndX b1) := rfl

theorem staIndY (b1 : Byte) : Statement (.staIndY b1) := rfl

theorem stxZp (b1 : Byte) : Statement (.stxZp b1) := rfl

theorem stxZpY (b1 : Byte) : Statement (.stxZpY b1) := rfl

theorem stxAbs (w : Word) : Statement (.stxAbs w) := rfl

theorem styZp (b1 : Byte) : Statement (.styZp b1) := rfl

theorem styZpX (b1 : Byte) : Statement (.styZpX b1) := rfl

theorem styAbs (w : Word) : Statement (.styAbs w) := rfl

theorem tax : Statement .tax := rfl

theorem tay : Statement .tay := rfl

theorem txa : Statement .txa := rfl

theorem tya : Statement .tya := rfl

theorem tsx : Statement .tsx := rfl

theorem txs : Statement .txs := rfl

theorem adcImm (b1 : Byte) : Statement (.adcImm b1) := rfl

theorem adcZp (b1 : Byte) : Statement (.adcZp b1) := rfl

theorem adcZpX (b1 : Byte) : Statement (.adcZpX b1) := rfl

theorem adcAbs (w : Word) : Statement (.adcAbs w) := rfl

theorem adcAbsX (w : Word) : Statement (.adcAbsX w) := rfl

theorem adcAbsY (w : Word) : Statement (.adcAbsY w) := rfl

theorem adcIndX (b1 : Byte) : Statement (.adcIndX b1) := rfl

theorem adcIndY (b1 : Byte) : Statement (.adcIndY b1) := rfl

theorem sbcImm (b1 : Byte) : Statement (.sbcImm b1) := rfl

theorem sbcZp (b1 : Byte) : Statement (.sbcZp b1) := rfl

theorem sbcZpX (b1 : Byte) : Statement (.sbcZpX b1) := rfl

theorem sbcAbs (w : Word) : Statement (.sbcAbs w) := rfl

theorem sbcAbsX (w : Word) : Statement (.sbcAbsX w) := rfl

theorem sbcAbsY (w : Word) : Statement (.sbcAbsY w) := rfl

theorem sbcIndX (b1 : Byte) : Statement (.sbcIndX b1) := rfl

theorem sbcIndY (b1 : Byte) : Statement (.sbcIndY b1) := rfl

theorem andImm (b1 : Byte) : Statement (.andImm b1) := rfl

theorem andZp (b1 : Byte) : Statement (.andZp b1) := rfl

theorem andZpX (b1 : Byte) : Statement (.andZpX b1) := rfl

theorem andAbs (w : Word) : Statement (.andAbs w) := rfl

theorem andAbsX (w : Word) : Statement (.andAbsX w) := rfl

theorem andAbsY (w : Word) : Statement (.andAbsY w) := rfl

theorem andIndX (b1 : Byte) : Statement (.andIndX b1) := rfl

theorem andIndY (b1 : Byte) : Statement (.andIndY b1) := rfl

theorem oraImm (b1 : Byte) : Statement (.oraImm b1) := rfl

theorem oraZp (b1 : Byte) : Statement (.oraZp b1) := rfl

theorem oraZpX (b1 : Byte) : Statement (.oraZpX b1) := rfl

theorem oraAbs (w : Word) : Statement (.oraAbs w) := rfl

theorem oraAbsX (w : Word) : Statement (.oraAbsX w) := rfl

theorem oraAbsY (w : Word) : Statement (.oraAbsY w) := rfl

theorem oraIndX (b1 : Byte) : Statement (.oraIndX b1) := rfl

theorem oraIndY (b1 : Byte) : Statement (.oraIndY b1) := rfl

theorem eorImm (b1 : Byte) : Statement (.eorImm b1) := rfl

theorem eorZp (b1 : Byte) : Statement (.eorZp b1) := rfl

theorem eorZpX (b1 : Byte) : Statement (.eorZpX b1) := rfl

theorem eorAbs (w : Word) : Statement (.eorAbs w) := rfl

theorem eorAbsX (w : Word) : Statement (.eorAbsX w) := rfl

theorem eorAbsY (w : Word) : Statement (.eorAbsY w) := rfl

theorem eorIndX (b1 : Byte) : Statement (.eorIndX b1) := rfl

theorem eorIndY (b1 : Byte) : Statement (.eorIndY b1) := rfl

theorem cmpImm (b1 : Byte) : Statement (.cmpImm b1) := rfl

theorem cmpZp (b1 : Byte) : Statement (.cmpZp b1) := rfl

theorem cmpZpX (b1 : Byte) : Statement (.cmpZpX b1) := rfl

theorem cmpAbs (w : Word) : Statement (.cmpAbs w) := rfl

theorem cmpAbsX (w : Word) : Statement (.cmpAbsX w) := rfl

theorem cmpAbsY (w : Word) : Statement (.cmpAbsY w) := rfl

theorem cmpIndX (b1 : Byte) : Statement (.cmpIndX b1) := rfl

theorem cmpIndY (b1 : Byte) : Statement (.cmpIndY b1) := rfl

theorem cpxImm (b1 : Byte) : Statement (.cpxImm b1) := rfl

theorem cpxZp (b1 : Byte) : Statement (.cpxZp b1) := rfl

theorem cpxAbs (w : Word) : Statement (.cpxAbs w) := rfl

theorem cpyImm (b1 : Byte) : Statement (.cpyImm b1) := rfl

theorem cpyZp (b1 : Byte) : Statement (.cpyZp b1) := rfl

theorem cpyAbs (w : Word) : Statement (.cpyAbs w) := rfl

theorem bitZp (b1 : Byte) : Statement (.bitZp b1) := rfl

theorem bitAbs (w : Word) : Statement (.bitAbs w) := rfl

theorem incZp (b1 : Byte) : Statement (.incZp b1) := rfl

theorem incZpX (b1 : Byte) : Statement (.incZpX b1) := rfl

theorem incAbs (w : Word) : Statement (.incAbs w) := rfl

theorem incAbsX (w : Word) : Statement (.incAbsX w) := rfl

theorem decZp (b1 : Byte) : Statement (.decZp b1) := rfl

theorem decZpX (b1 : Byte) : Statement (.decZpX b1) := rfl

theorem decAbs (w : Word) : Statement (.decAbs w) := rfl

theorem decAbsX (w : Word) : Statement (.decAbsX w) := rfl

theorem inx : Statement .inx := rfl

theorem iny : Statement .iny := rfl

theorem dex : Statement .dex := rfl

theorem dey : Statement .dey := rfl

theorem aslAcc : Statement .aslAcc := rfl

theorem aslZp (b1 : Byte) : Statement (.aslZp b1) := rfl

theorem aslZpX (b1 : Byte) : Statement (.aslZpX b1) := rfl

theorem aslAbs (w : Word) : Statement (.aslAbs w) := rfl

theorem aslAbsX (w : Word) : Statement (.aslAbsX w) := rfl

theorem lsrAcc : Statement .lsrAcc := rfl

theorem lsrZp (b1 : Byte) : Statement (.lsrZp b1) := rfl

theorem lsrZpX (b1 : Byte) : Statement (.lsrZpX b1) := rfl

theorem lsrAbs (w : Word) : Statement (.lsrAbs w) := rfl

theorem lsrAbsX (w : Word) : Statement (.lsrAbsX w) := rfl

theorem rolAcc : Statement .rolAcc := rfl

theorem rolZp (b1 : Byte) : Statement (.rolZp b1) := rfl

theorem rolZpX (b1 : Byte) : Statement (.rolZpX b1) := rfl

theorem rolAbs (w : Word) : Statement (.rolAbs w) := rfl

theorem rolAbsX (w : Word) : Statement (.rolAbsX w) := rfl

theorem rorAcc : Statement .rorAcc := rfl

theorem rorZp (b1 : Byte) : Statement (.rorZp b1) := rfl

theorem rorZpX (b1 : Byte) : Statement (.rorZpX b1) := rfl

theorem rorAbs (w : Word) : Statement (.rorAbs w) := rfl

theorem rorAbsX (w : Word) : Statement (.rorAbsX w) := rfl

theorem bccRel (b1 : Byte) : Statement (.bccRel b1) := rfl

theorem bcsRel (b1 : Byte) : Statement (.bcsRel b1) := rfl

theorem beqRel (b1 : Byte) : Statement (.beqRel b1) := rfl

theorem bneRel (b1 : Byte) : Statement (.bneRel b1) := rfl

theorem bmiRel (b1 : Byte) : Statement (.bmiRel b1) := rfl

theorem bplRel (b1 : Byte) : Statement (.bplRel b1) := rfl

theorem bvcRel (b1 : Byte) : Statement (.bvcRel b1) := rfl

theorem bvsRel (b1 : Byte) : Statement (.bvsRel b1) := rfl

theorem jmpAbs (w : Word) : Statement (.jmpAbs w) := rfl

theorem jmpInd (w : Word) : Statement (.jmpInd w) := rfl

theorem jsrAbs (w : Word) : Statement (.jsrAbs w) := rfl

theorem rts : Statement .rts := rfl

theorem brk : Statement .brk := rfl

theorem rti : Statement .rti := rfl

theorem pha : Statement .pha := rfl

theorem php : Statement .php := rfl

theorem pla : Statement .pla := rfl

theorem plp : Statement .plp := rfl

theorem clc : Statement .clc := rfl

theorem sec : Statement .sec := rfl

theorem cli : Statement .cli := rfl

theorem sei : Statement .sei := rfl

theorem cld : Statement .cld := rfl

theorem sed : Statement .sed := rfl

theorem clv : Statement .clv := rfl

theorem nop : Statement .nop := rfl

end Sys2Proof.Laws.Encoding
end

