-- ==== Sys2Proof/Laws/Step.lean ====
section
/-! SUPPORT. What a tick, a fetch and a step can do, said once: the parts of a step that goes on, and what each part keeps. -/

namespace Sys2Proof.Machine

/-! ## PPU ticks -/

/-- A PPU tick changes the PPU, the latch and the frames delivered, and nothing else (R200). -/
theorem tickEvents_frame (s : State) :
    tickEvents s = { s with ppu := (tickEvents s).ppu, latch := (tickEvents s).latch,
                            out := { s.out with frames := (tickEvents s).out.frames } } := by
  unfold tickEvents
  split
  · rfl
  · split
    · rfl
    · split
      · dsimp only; split <;> rfl
      · rfl

theorem ppuTick_frame (s : State) :
    ppuTick s = { s with ppu := (ppuTick s).ppu, latch := (ppuTick s).latch,
                         out := { s.out with frames := (ppuTick s).out.frames } } := by
  unfold ppuTick
  rw [tickEvents_frame]; rfl

theorem ppuTicks_preserves (P : State → Prop) (hP : ∀ {s}, P s → P (ppuTick s)) (n : Nat) {s : State} (hs : P s) :
    P (ppuTicks n s) := by
  induction n generalizing s with
  | zero => exact hs
  | succ n ih => exact ih (hP hs)

theorem ppuTicks_frame (n : Nat) (s : State) :
    ppuTicks n s = { s with ppu := (ppuTicks n s).ppu, latch := (ppuTicks n s).latch,
                            out := { s.out with frames := (ppuTicks n s).out.frames } } := by
  refine ppuTicks_preserves
    (fun t => t = { s with ppu := t.ppu, latch := t.latch, out := { s.out with frames := t.out.frames } }) ?_ n rfl
  intro t ht
  rw [ppuTick_frame t, ht]

/-! ## APU ticks -/

/-- The parts of an APU tick that goes on (R262). -/
theorem apuTick_eq (s : State) :
    apuTick s = dmcReaderCheck ((frameSequencerTick s).withApu (frameSequencerTick s).apu.timersTick) := rfl

theorem apuTicks_preserves (P : State → Prop) (hP : ∀ {s t}, apuTick s = .ok () t → P s → P t) {n : Nat} {s t : State}
    (h : apuTicks n s = .ok () t) (hs : P s) : P t := by
  induction n generalizing s with
  | zero => cases h; exact hs
  | succ n ih =>
    obtain ⟨_, u, hr, hk⟩ := Res.bind_eq_ok.1 h
    exact ih hk (hP hr hs)

theorem apuTick_frame {s t : State} (h : apuTick s = .ok () t) : WriteFrame s t :=
  WriteFrame.trans (t := (frameSequencerTick s).withApu (frameSequencerTick s).apu.timersTick) rfl (dmcReaderCheck_frame h)

theorem apuTicks_frame {n : Nat} {s t : State} (h : apuTicks n s = .ok () t) : WriteFrame s t :=
  apuTicks_preserves (WriteFrame s) (fun h hs => hs.trans (apuTick_frame h)) h (WriteFrame.refl s)

/-! ## Fetch -/

theorem fetchByte_eq_ok {s t : State} {b : Byte} :
    fetchByte s = .ok b t ↔ ∃ u, memRead s.cpu.pc s = .ok b u ∧ t = u.setPc (u.cpu.pc + 1) := by
  unfold fetchByte
  rw [Res.bind_eq_ok]
  constructor
  · rintro ⟨b', u, hr, hk⟩; cases hk; exact ⟨u, hr, rfl⟩
  · rintro ⟨u, hr, rfl⟩; exact ⟨b, u, hr, rfl⟩

/-- What a fetched byte keeps, a fetched instruction keeps. -/
theorem fetch_preserves (P : State → Prop) (hP : ∀ {b s t}, fetchByte s = .ok b t → P s → P t) {s t : State} {i : Instr}
    (h : fetch s = .ok i t) (hs : P s) : P t := by
  obtain ⟨op, u, hb, hk⟩ := Res.bind_eq_ok.1 h
  have hu := hP hb hs
  split at hk
  · exact absurd hk (raise_ne_ok _ _ _ _)
  · unfold fetchOperands at hk
    split at hk
    · cases hk; exact hu
    · obtain ⟨b, v, hb, hk⟩ := Res.bind_eq_ok.1 hk
      cases hk; exact hP hb hu
    · obtain ⟨lo, v, hb, hk⟩ := Res.bind_eq_ok.1 hk
      obtain ⟨hi, w, hb', hk⟩ := Res.bind_eq_ok.1 hk
      cases hk; exact hP hb' (hP hb hu)

/-! ## The step -/

/-- The parts of a settling that goes on (R350). -/
theorem settle_eq_next {i : Instr} {s t : State} :
    settle i s = .next t ↔
      ∃ u, drainApu (drainPpu (chargeCycles i s)) = .ok () u ∧ t = resolveInterrupt (emitSamples u) := by
  unfold settle
  rw [Res.toOutcome_eq_next, Res.bind_eq_ok]
  constructor
  · rintro ⟨_, u, hr, hk⟩; cases hk; exact ⟨u, hr, rfl⟩
  · rintro ⟨u, hr, rfl⟩; exact ⟨(), u, hr, rfl⟩

/-- The parts of a step that goes on (R350, R373). -/
theorem step_eq_next {s t : State} :
    step s = .next t ↔
      s.fault = none ∧ s.loaded = true ∧
      ∃ i u v w, fetch (beginStep s) = .ok i u ∧ exec i u = .next v ∧
        drainApu (drainPpu (chargeCycles i v)) = .ok () w ∧ t = resolveInterrupt (emitSamples w) := by
  unfold step
  constructor
  · intro h
    split at h
    · cases h
    · rename_i hf
      split at h
      · rename_i hl
        refine ⟨hf, hl, ?_⟩
        unfold runInstruction at h
        split at h
        · cases h
        · rename_i i u hfe
          split at h
          · rename_i v he
            obtain ⟨w, hd, ht⟩ := settle_eq_next.1 h
            exact ⟨i, u, v, w, hfe, he, hd, ht⟩
          · cases h
          · cases h
      · cases h
  · rintro ⟨hf, hl, i, u, v, w, hfe, he, hd, rfl⟩
    simp only [hf, hl, if_true, runInstruction, hfe, he]
    exact settle_eq_next.2 ⟨w, hd, rfl⟩

theorem drainApu_preserves (P : State → Prop) (hP : ∀ {s t}, apuTick s = .ok () t → P s → P t)
    (hacc : ∀ {s} (n : Nat), P s → P { s with clock := { s.clock with accApu := n } })
    {s t : State} (h : drainApu s = .ok () t) (hs : P s) : P t :=
  apuTicks_preserves P hP h (hacc _ hs)

theorem drainPpu_preserves (P : State → Prop) (hP : ∀ {s}, P s → P (ppuTick s))
    (hacc : ∀ {s} (n : Nat), P s → P { s with clock := { s.clock with accPpu := n } })
    {s : State} (hs : P s) : P (drainPpu s) :=
  ppuTicks_preserves P hP _ (hacc _ hs)

/-- The states that differ in the clock, the batch and the output alone, from the start of a step on. -/
def BookFrame (s t : State) : Prop := t = { s with clock := t.clock, batch := t.batch, out := t.out }

/-- What changes of the CPU, bus reads, bus writes, raises, bookkeeping, PPU ticks, the APU's own ticks and the interrupt
check keep, a step keeps: the one induction every invariant of the step goes through. -/
theorem step_preserves (P : State → Prop)
    (hbook : ∀ {s t}, BookFrame s t → P s → P t)
    (hcpu : ∀ {s} (c : Cpu), P s → P (s.withCpu c))
    (hread : ∀ {a v s t}, memRead a s = .ok v t → P s → P t)
    (hwrite : ∀ {a v s t}, memWrite a v s = .ok () t → P s → P t)
    (hint : ∀ {s}, P s → P (raiseInterrupt .irqBrk s))
    (hppu : ∀ {s}, P s → P (ppuTick s))
    (hapu : ∀ {s t}, apuTick s = .ok () t → P s → P t)
    (hres : ∀ {s}, P s → P (resolveInterrupt s))
    {s t : State} (h : step s = .next t) (hs : P s) : P t := by
  obtain ⟨-, -, i, u, v, w, hf, he, hd, rfl⟩ := step_eq_next.1 h
  have h1 : P (beginStep s) := hbook (s := s) rfl hs
  have h2 : P u := by
    refine fetch_preserves P ?_ hf h1
    intro b s t hb hs
    obtain ⟨u, hr, rfl⟩ := fetchByte_eq_ok.1 hb
    exact hcpu _ (hread hr hs)
  have h3 : P v := exec_preserves P hcpu hread hwrite hint he h2
  have h4 : P (chargeCycles i v) := hbook (s := v) rfl h3
  have h5 : P (drainPpu (chargeCycles i v)) := drainPpu_preserves P hppu (fun {s} _ hs => hbook (s := s) rfl hs) h4
  have h6 : P w := drainApu_preserves P hapu (fun {s} _ hs => hbook (s := s) rfl hs) hd h5
  exact hres (hbook (s := w) rfl h6)

/-- A step is refused only without a cartridge or with a fault set (R373). -/
theorem step_refused {s : State} {q : Refusal} (h : step s = .refused q) :
    (∃ r, s.fault = some r ∧ q = .faulted r) ∨ (s.fault = none ∧ s.loaded = false ∧ q = .notLoaded) := by
  unfold step at h
  split at h
  · rename_i r hf; cases h; exact .inl ⟨r, hf, rfl⟩
  · rename_i hf
    split at h
    · unfold runInstruction at h
      split at h
      · cases h
      · split at h
        · exact absurd h Res.toOutcome_ne_refused
        · cases h
        · rename_i he; exact absurd he (exec_ne_refused _ _ _)
    · rename_i hl; cases h; exact .inr ⟨hf, by simpa using hl, rfl⟩

end Sys2Proof.Machine
end

