-- ==== Sys2Proof/Laws/Ppu.lean ====
section
/-! SUPPORT. The parts of a PPU tick: what the events leave of the position, and what the advance leaves of the rest; and the
two spellings of SetNZ. -/

namespace Sys2Proof.Machine

/-- `Cpu.nz` of the statements is `SetNZ` of the model (R110). -/
theorem Cpu.nz_eq_setNZ (c : Cpu) (v : Byte) : c.nz v = c.setNZ v := by
  unfold Cpu.nz Cpu.setNZ; congr 1

/-- The events at a position leave the position, the parity, the mask, t, x and w alone (R215). -/
theorem tickEvents_position (s : State) :
    (tickEvents s).ppu.scanline = s.ppu.scanline ∧ (tickEvents s).ppu.pixel = s.ppu.pixel ∧
    (tickEvents s).ppu.odd = s.ppu.odd ∧ (tickEvents s).ppu.mask = s.ppu.mask ∧ (tickEvents s).ppu.ctrl = s.ppu.ctrl ∧
    (tickEvents s).ppu.t = s.ppu.t ∧ (tickEvents s).ppu.x = s.ppu.x ∧ (tickEvents s).ppu.w = s.ppu.w := by
  unfold tickEvents
  split
  · exact ⟨rfl, rfl, rfl, rfl, rfl, rfl, rfl, rfl⟩
  · split
    · exact ⟨rfl, rfl, rfl, rfl, rfl, rfl, rfl, rfl⟩
    · split
      · dsimp only; split
        · unfold scrollReload; dsimp only; split <;> exact ⟨rfl, rfl, rfl, rfl, rfl, rfl, rfl, rfl⟩
        · exact ⟨rfl, rfl, rfl, rfl, rfl, rfl, rfl, rfl⟩
      · exact ⟨rfl, rfl, rfl, rfl, rfl, rfl, rfl, rfl⟩

/-- The advance changes the position and the parity alone (R215). -/
theorem advancePosition_frame (u : Ppu) :
    advancePosition u = { u with scanline := (advancePosition u).scanline, pixel := (advancePosition u).pixel,
                                 odd := (advancePosition u).odd } := by
  unfold advancePosition; dsimp only
  split
  · split
    · split <;> rfl
    · rfl
  · split
    · split <;> rfl
    · rfl

/-- A tick at (VBLANK_BEGIN, 0) is the VBlank event (R216). -/
theorem tickEvents_vblankBegin {s : State} (h : s.ppu.scanline = 241) (hp : s.ppu.pixel = 0) :
    tickEvents s = vblankBeginEvent s := if_pos ⟨h, hp⟩

/-- A tick at (-1, 0) is the end of VBlank (R217). -/
theorem tickEvents_vblankEnd {s : State} (h : s.ppu.scanline = -1) (hp : s.ppu.pixel = 0) :
    tickEvents s = vblankEndEvent s :=
  (if_neg (by rw [h]; exact fun e => absurd e.1 (by decide))).trans (if_pos ⟨h, hp⟩)

end Sys2Proof.Machine
end

