-- ==== Sys2Proof/Laws/Run.lean ====
section
/-! SUPPORT. What one more step does to a run, and that a run is the run of the host's interface (R432). -/

namespace Sys2Proof.Machine

variable {s t : State}

theorem runSteps_next (h : step s = .next t) (n : Nat) : runSteps (n + 1) s = runSteps n t := by
  rw [runSteps, h]

theorem runSteps_fault {f : Fault} (h : step s = .fault f) (n : Nat) : runSteps (n + 1) s = .fault f := by
  rw [runSteps, h]

theorem runSteps_refused {r : Refusal} (h : step s = .refused r) (n : Nat) : runSteps (n + 1) s = .refused r := by
  rw [runSteps, h]

/-- One more step of a run of the host's interface, by the outcome of its first. -/
theorem coreRun_succ (M : Host.Core) (s : M.State) (n : Nat) :
    (∀ t, M.step s = .next t → M.run (n + 1) s = M.run n t) ∧ (∀ f, M.step s = .fault f → M.run (n + 1) s = .fault f) ∧
    (∀ r, M.step s = .refused r → M.run (n + 1) s = .refused r) := by
  refine ⟨fun t h => ?_, fun f h => ?_, fun r h => ?_⟩ <;> rw [Host.Core.run, h]

/-- The run of the model is `Host.Core.run` of its core. -/
theorem runSteps_eq_core_run (n : Nat) (s : State) : runSteps n s = Sys2Proof.core.run n s := by
  induction n generalizing s with
  | zero => rfl
  | succ n ih =>
    obtain ⟨hn, hf, hr⟩ := coreRun_succ Sys2Proof.core s n
    cases h : step s with
    | next t => exact (runSteps_next h n).trans ((ih t).trans (hn t h).symm)
    | fault f => exact (runSteps_fault h n).trans (hf f h).symm
    | refused r => exact (runSteps_refused h n).trans (hr r h).symm

end Sys2Proof.Machine
end

