-- ==== Sys2Proof/Tests/Slice0.lean ====
section
/-! SUPPORT. The model's own tests: the check of well-formed encodings, the decoding of a word of every row of the opcode map,
the rows of the spec's test vectors on one instruction or one step, and a witness for the hypotheses of each obligation. -/

namespace Sys2Proof.Tests

open Sys2Proof Sys2Proof.Machine

/-! ## The check of well-formed encodings -/

theorem test_wf_accepts : encodingWellFormed [0xEA] = true ∧ encodingWellFormed [0xA9, 0xFF] = true ∧
    encodingWellFormed [0x4C, 0x34, 0x12] = true := by decide

theorem test_wf_no_bytes : encodingWellFormed [] = false := by decide

theorem test_wf_illegal_opcode : encodingWellFormed [0x02] = false ∧ encodingWellFormed [0xFF, 0x00, 0x00] = false ∧
    encodingWellFormed [0x89, 0x00] = false := by decide

theorem test_wf_missing_operand : encodingWellFormed [0xA9] = false ∧ encodingWellFormed [0x4C, 0x34] = false := by decide

theorem test_wf_extra_operand : encodingWellFormed [0xEA, 0x00] = false ∧ encodingWellFormed [0xA9, 0x01, 0x02] = false := by
  decide

theorem test_illegal_count : illegalOpcodes.length = 105 ∧ illegalOpcodes.Nodup := by decide +kernel

theorem test_illegal_refused : illegalOpcodes.all (fun n => (opcodeRow (BitVec.ofNat 8 n)).isNone) = true := by decide +kernel

theorem test_decode_missing_operand : decode [0xAD, 0x00] = .error (.missingOperand 0xAD) := rfl

/-- Base cycles of R104, some of each row shape. -/
theorem test_base_cycles : baseCycles .brk = 7 ∧ baseCycles .rti = 6 ∧ baseCycles (.jsrAbs 0) = 6 ∧ baseCycles .rts = 6 ∧
    baseCycles .pha = 3 ∧ baseCycles .pla = 4 ∧ baseCycles (.jmpInd 0) = 5 ∧ baseCycles (.incAbsX 0) = 7 ∧
    baseCycles (.staAbsX 0) = 5 ∧ baseCycles (.staIndY 0) = 6 ∧ baseCycles (.ldaAbsX 0) = 4 ∧ baseCycles (.ldaIndY 0) = 5 ∧
    baseCycles (.bneRel 0) = 2 ∧ baseCycles (.aslZpX 0) = 6 := by decide +kernel

/-! ## Decoding: a word of every row of the opcode map, spelled from R90 and R104 -/

theorem test_decode_load_store_transfer_1 :
    decode [0xA9, 0x12] = .ok (.ldaImm 0x12, []) ∧
    decode [0xA5, 0x12] = .ok (.ldaZp 0x12, []) ∧
    decode [0xB5, 0x12] = .ok (.ldaZpX 0x12, []) ∧
    decode [0xAD, 0x34, 0x12] = .ok (.ldaAbs 0x1234, []) ∧
    decode [0xBD, 0x34, 0x12] = .ok (.ldaAbsX 0x1234, []) ∧
    decode [0xB9, 0x34, 0x12] = .ok (.ldaAbsY 0x1234, []) ∧
    decode [0xA1, 0x12] = .ok (.ldaIndX 0x12, []) ∧
    decode [0xB1, 0x12] = .ok (.ldaIndY 0x12, []) ∧
    decode [0xA2, 0x12] = .ok (.ldxImm 0x12, []) ∧
    decode [0xA6, 0x12] = .ok (.ldxZp 0x12, []) ∧
    decode [0xB6, 0x12] = .ok (.ldxZpY 0x12, []) ∧
    decode [0xAE, 0x34, 0x12] = .ok (.ldxAbs 0x1234, []) ∧
    decode [0xBE, 0x34, 0x12] = .ok (.ldxAbsY 0x1234, []) ∧
    decode [0xA0, 0x12] = .ok (.ldyImm 0x12, []) ∧
    decode [0xA4, 0x12] = .ok (.ldyZp 0x12, []) ∧
    decode [0xB4, 0x12] = .ok (.ldyZpX 0x12, []) ∧
    decode [0xAC, 0x34, 0x12] = .ok (.ldyAbs 0x1234, []) ∧
    decode [0xBC, 0x34, 0x12] = .ok (.ldyAbsX 0x1234, []) ∧
    decode [0x85, 0x12] = .ok (.staZp 0x12, []) ∧
    decode [0x95, 0x12] = .ok (.staZpX 0x12, []) := by
  and_intros <;> rfl

theorem test_decode_load_store_transfer_2 :
    decode [0x8D, 0x34, 0x12] = .ok (.staAbs 0x1234, []) ∧
    decode [0x9D, 0x34, 0x12] = .ok (.staAbsX 0x1234, []) ∧
    decode [0x99, 0x34, 0x12] = .ok (.staAbsY 0x1234, []) ∧
    decode [0x81, 0x12] = .ok (.staIndX 0x12, []) ∧
    decode [0x91, 0x12] = .ok (.staIndY 0x12, []) ∧
    decode [0x86, 0x12] = .ok (.stxZp 0x12, []) ∧
    decode [0x96, 0x12] = .ok (.stxZpY 0x12, []) ∧
    decode [0x8E, 0x34, 0x12] = .ok (.stxAbs 0x1234, []) ∧
    decode [0x84, 0x12] = .ok (.styZp 0x12, []) ∧
    decode [0x94, 0x12] = .ok (.styZpX 0x12, []) ∧
    decode [0x8C, 0x34, 0x12] = .ok (.styAbs 0x1234, []) ∧
    decode [0xAA] = .ok (.tax, []) ∧
    decode [0xA8] = .ok (.tay, []) ∧
    decode [0x8A] = .ok (.txa, []) ∧
    decode [0x98] = .ok (.tya, []) ∧
    decode [0xBA] = .ok (.tsx, []) ∧
    decode [0x9A] = .ok (.txs, []) := by
  and_intros <;> rfl

theorem test_decode_arithmetic_logic_1 :
    decode [0x69, 0x12] = .ok (.adcImm 0x12, []) ∧
    decode [0x65, 0x12] = .ok (.adcZp 0x12, []) ∧
    decode [0x75, 0x12] = .ok (.adcZpX 0x12, []) ∧
    decode [0x6D, 0x34, 0x12] = .ok (.adcAbs 0x1234, []) ∧
    decode [0x7D, 0x34, 0x12] = .ok (.adcAbsX 0x1234, []) ∧
    decode [0x79, 0x34, 0x12] = .ok (.adcAbsY 0x1234, []) ∧
    decode [0x61, 0x12] = .ok (.adcIndX 0x12, []) ∧
    decode [0x71, 0x12] = .ok (.adcIndY 0x12, []) ∧
    decode [0xE9, 0x12] = .ok (.sbcImm 0x12, []) ∧
    decode [0xE5, 0x12] = .ok (.sbcZp 0x12, []) ∧
    decode [0xF5, 0x12] = .ok (.sbcZpX 0x12, []) ∧
    decode [0xED, 0x34, 0x12] = .ok (.sbcAbs 0x1234, []) ∧
    decode [0xFD, 0x34, 0x12] = .ok (.sbcAbsX 0x1234, []) ∧
    decode [0xF9, 0x34, 0x12] = .ok (.sbcAbsY 0x1234, []) ∧
    decode [0xE1, 0x12] = .ok (.sbcIndX 0x12, []) ∧
    decode [0xF1, 0x12] = .ok (.sbcIndY 0x12, []) ∧
    decode [0x29, 0x12] = .ok (.andImm 0x12, []) ∧
    decode [0x25, 0x12] = .ok (.andZp 0x12, []) ∧
    decode [0x35, 0x12] = .ok (.andZpX 0x12, []) ∧
    decode [0x2D, 0x34, 0x12] = .ok (.andAbs 0x1234, []) := by
  and_intros <;> rfl

theorem test_decode_arithmetic_logic_2 :
    decode [0x3D, 0x34, 0x12] = .ok (.andAbsX 0x1234, []) ∧
    decode [0x39, 0x34, 0x12] = .ok (.andAbsY 0x1234, []) ∧
    decode [0x21, 0x12] = .ok (.andIndX 0x12, []) ∧
    decode [0x31, 0x12] = .ok (.andIndY 0x12, []) ∧
    decode [0x09, 0x12] = .ok (.oraImm 0x12, []) ∧
    decode [0x05, 0x12] = .ok (.oraZp 0x12, []) ∧
    decode [0x15, 0x12] = .ok (.oraZpX 0x12, []) ∧
    decode [0x0D, 0x34, 0x12] = .ok (.oraAbs 0x1234, []) ∧
    decode [0x1D, 0x34, 0x12] = .ok (.oraAbsX 0x1234, []) ∧
    decode [0x19, 0x34, 0x12] = .ok (.oraAbsY 0x1234, []) ∧
    decode [0x01, 0x12] = .ok (.oraIndX 0x12, []) ∧
    decode [0x11, 0x12] = .ok (.oraIndY 0x12, []) ∧
    decode [0x49, 0x12] = .ok (.eorImm 0x12, []) ∧
    decode [0x45, 0x12] = .ok (.eorZp 0x12, []) ∧
    decode [0x55, 0x12] = .ok (.eorZpX 0x12, []) ∧
    decode [0x4D, 0x34, 0x12] = .ok (.eorAbs 0x1234, []) ∧
    decode [0x5D, 0x34, 0x12] = .ok (.eorAbsX 0x1234, []) ∧
    decode [0x59, 0x34, 0x12] = .ok (.eorAbsY 0x1234, []) ∧
    decode [0x41, 0x12] = .ok (.eorIndX 0x12, []) ∧
    decode [0x51, 0x12] = .ok (.eorIndY 0x12, []) := by
  and_intros <;> rfl

theorem test_decode_arithmetic_logic_3 :
    decode [0xC9, 0x12] = .ok (.cmpImm 0x12, []) ∧
    decode [0xC5, 0x12] = .ok (.cmpZp 0x12, []) ∧
    decode [0xD5, 0x12] = .ok (.cmpZpX 0x12, []) ∧
    decode [0xCD, 0x34, 0x12] = .ok (.cmpAbs 0x1234, []) ∧
    decode [0xDD, 0x34, 0x12] = .ok (.cmpAbsX 0x1234, []) ∧
    decode [0xD9, 0x34, 0x12] = .ok (.cmpAbsY 0x1234, []) ∧
    decode [0xC1, 0x12] = .ok (.cmpIndX 0x12, []) ∧
    decode [0xD1, 0x12] = .ok (.cmpIndY 0x12, []) ∧
    decode [0xE0, 0x12] = .ok (.cpxImm 0x12, []) ∧
    decode [0xE4, 0x12] = .ok (.cpxZp 0x12, []) ∧
    decode [0xEC, 0x34, 0x12] = .ok (.cpxAbs 0x1234, []) ∧
    decode [0xC0, 0x12] = .ok (.cpyImm 0x12, []) ∧
    decode [0xC4, 0x12] = .ok (.cpyZp 0x12, []) ∧
    decode [0xCC, 0x34, 0x12] = .ok (.cpyAbs 0x1234, []) ∧
    decode [0x24, 0x12] = .ok (.bitZp 0x12, []) ∧
    decode [0x2C, 0x34, 0x12] = .ok (.bitAbs 0x1234, []) ∧
    decode [0xE6, 0x12] = .ok (.incZp 0x12, []) ∧
    decode [0xF6, 0x12] = .ok (.incZpX 0x12, []) ∧
    decode [0xEE, 0x34, 0x12] = .ok (.incAbs 0x1234, []) ∧
    decode [0xFE, 0x34, 0x12] = .ok (.incAbsX 0x1234, []) := by
  and_intros <;> rfl

theorem test_decode_arithmetic_logic_4 :
    decode [0xC6, 0x12] = .ok (.decZp 0x12, []) ∧
    decode [0xD6, 0x12] = .ok (.decZpX 0x12, []) ∧
    decode [0xCE, 0x34, 0x12] = .ok (.decAbs 0x1234, []) ∧
    decode [0xDE, 0x34, 0x12] = .ok (.decAbsX 0x1234, []) ∧
    decode [0xE8] = .ok (.inx, []) ∧
    decode [0xC8] = .ok (.iny, []) ∧
    decode [0xCA] = .ok (.dex, []) ∧
    decode [0x88] = .ok (.dey, []) := by
  and_intros <;> rfl

theorem test_decode_shift_rotate :
    decode [0x0A] = .ok (.aslAcc, []) ∧
    decode [0x06, 0x12] = .ok (.aslZp 0x12, []) ∧
    decode [0x16, 0x12] = .ok (.aslZpX 0x12, []) ∧
    decode [0x0E, 0x34, 0x12] = .ok (.aslAbs 0x1234, []) ∧
    decode [0x1E, 0x34, 0x12] = .ok (.aslAbsX 0x1234, []) ∧
    decode [0x4A] = .ok (.lsrAcc, []) ∧
    decode [0x46, 0x12] = .ok (.lsrZp 0x12, []) ∧
    decode [0x56, 0x12] = .ok (.lsrZpX 0x12, []) ∧
    decode [0x4E, 0x34, 0x12] = .ok (.lsrAbs 0x1234, []) ∧
    decode [0x5E, 0x34, 0x12] = .ok (.lsrAbsX 0x1234, []) ∧
    decode [0x2A] = .ok (.rolAcc, []) ∧
    decode [0x26, 0x12] = .ok (.rolZp 0x12, []) ∧
    decode [0x36, 0x12] = .ok (.rolZpX 0x12, []) ∧
    decode [0x2E, 0x34, 0x12] = .ok (.rolAbs 0x1234, []) ∧
    decode [0x3E, 0x34, 0x12] = .ok (.rolAbsX 0x1234, []) ∧
    decode [0x6A] = .ok (.rorAcc, []) ∧
    decode [0x66, 0x12] = .ok (.rorZp 0x12, []) ∧
    decode [0x76, 0x12] = .ok (.rorZpX 0x12, []) ∧
    decode [0x6E, 0x34, 0x12] = .ok (.rorAbs 0x1234, []) ∧
    decode [0x7E, 0x34, 0x12] = .ok (.rorAbsX 0x1234, []) := by
  and_intros <;> rfl

theorem test_decode_control_flow :
    decode [0x90, 0x12] = .ok (.bccRel 0x12, []) ∧
    decode [0xB0, 0x12] = .ok (.bcsRel 0x12, []) ∧
    decode [0xF0, 0x12] = .ok (.beqRel 0x12, []) ∧
    decode [0xD0, 0x12] = .ok (.bneRel 0x12, []) ∧
    decode [0x30, 0x12] = .ok (.bmiRel 0x12, []) ∧
    decode [0x10, 0x12] = .ok (.bplRel 0x12, []) ∧
    decode [0x50, 0x12] = .ok (.bvcRel 0x12, []) ∧
    decode [0x70, 0x12] = .ok (.bvsRel 0x12, []) ∧
    decode [0x4C, 0x34, 0x12] = .ok (.jmpAbs 0x1234, []) ∧
    decode [0x6C, 0x34, 0x12] = .ok (.jmpInd 0x1234, []) ∧
    decode [0x20, 0x34, 0x12] = .ok (.jsrAbs 0x1234, []) ∧
    decode [0x60] = .ok (.rts, []) ∧
    decode [0x00] = .ok (.brk, []) ∧
    decode [0x40] = .ok (.rti, []) := by
  and_intros <;> rfl

theorem test_decode_stack_flags_misc :
    decode [0x48] = .ok (.pha, []) ∧
    decode [0x08] = .ok (.php, []) ∧
    decode [0x68] = .ok (.pla, []) ∧
    decode [0x28] = .ok (.plp, []) ∧
    decode [0x18] = .ok (.clc, []) ∧
    decode [0x38] = .ok (.sec, []) ∧
    decode [0x58] = .ok (.cli, []) ∧
    decode [0x78] = .ok (.sei, []) ∧
    decode [0xD8] = .ok (.cld, []) ∧
    decode [0xF8] = .ok (.sed, []) ∧
    decode [0xB8] = .ok (.clv, []) ∧
    decode [0xEA] = .ok (.nop, []) := by
  and_intros <;> rfl

/-! ## One instruction on a small state; the expected results are rows of 95_test_vectors.md -/

/-- The CPU at power-up with every flag 0 (R411, but for I). -/
def cpu0 : Cpu := { Cpu.powerUp with i := false }

/-- The power-up state with a CPU and a work RAM of the test's own. -/
def onCpu (c : Cpu) (ram : Memory := []) : State := { State.reset with cpu := c, ram := ram }

/-- The state an instruction leaves. -/
def after (i : Instr) (s : State) : State :=
  match exec i s with
  | .next t => t
  | .fault (.fatal _ t) => t
  | .refused _ => s

/-- The CPU an instruction leaves. -/
def seen (i : Instr) (s : State) : Cpu := (after i s).cpu

/-- The record of the fatal error an instruction raises. -/
def raised (i : Instr) (s : State) : Option Fatal :=
  match exec i s with
  | .fault (.fatal r _) => some r
  | _ => none

-- Section 2: loads, stores, transfers, addressing.

theorem test_lda_negative : seen (.ldaImm 0x80) (onCpu cpu0) = { cpu0 with a := 0x80, n := true } := by decide

theorem test_lda_zero_page_x_wraps :
    (seen (.ldaZpX 0xF0) (onCpu { cpu0 with x := 0x20 } [(0x10, 0x5A), (0x110, 0x99)])).a = 0x5A := by decide

theorem test_lda_absolute_x_wraps :
    (seen (.ldaAbsX 0xFFFF) (onCpu { cpu0 with x := 0x01 } [(0, 0x33)])).a = 0x33 := by decide

theorem test_lda_indirect_x_wraps :
    (seen (.ldaIndX 0xFF) (onCpu cpu0 [(0, 0x03), (0x300, 0xAB)])).a = 0xAB := by decide

theorem test_lda_indirect_y_pointer_wraps :
    (seen (.ldaIndY 0xFF) (onCpu { cpu0 with y := 0x10 } [(0, 0x02), (0xFF, 0xF8), (0x308, 0x44)])).a = 0x44 := by decide

theorem test_lda_indirect_y_wraps :
    (seen (.ldaIndY 0x40) (onCpu { cpu0 with y := 0x01 } [(0, 0x12), (0x40, 0xFF), (0x41, 0xFF)])).a = 0x12 := by decide

theorem test_ldx_zero_page_y_wraps :
    (seen (.ldxZpY 0xFF) (onCpu { cpu0 with y := 0x01 } [(0, 0x77)])).x = 0x77 := by decide

theorem test_ldy_zero : seen (.ldyImm 0x00) (onCpu { cpu0 with y := 0x05 }) = { cpu0 with y := 0, z := true } := by decide

theorem test_sta_mirror : (after (.staAbs 0x0B00) (onCpu { cpu0 with a := 0x42 })).ram = [(0x300, 0x42)] := by decide

theorem test_sta_sram : (after (.staAbs 0x6000) (onCpu { cpu0 with a := 0x7E })).sram = [(0, 0x7E)] := by decide

theorem test_stx : (after (.stxZp 0x10) (onCpu { cpu0 with x := 0x05 })).ram = [(0x10, 0x05)] := by decide

theorem test_sty_ppu_register :
    (after (.styAbs 0x2006) (onCpu { cpu0 with y := 0x09 })).ppu.t = 0x0900 ∧
    (after (.styAbs 0x2006) (onCpu { cpu0 with y := 0x09 })).ppu.w = true := by decide

theorem test_tax : seen .tax (onCpu { cpu0 with a := 0xFF }) = { cpu0 with a := 0xFF, x := 0xFF, n := true } := by decide

theorem test_tay : seen .tay (onCpu { cpu0 with a := 0x01 }) = { cpu0 with a := 0x01, y := 0x01 } := by decide

theorem test_txa : seen .txa (onCpu { cpu0 with a := 0x07 }) = { cpu0 with z := true } := by decide

theorem test_tya : seen .tya (onCpu { cpu0 with y := 0x80 }) = { cpu0 with y := 0x80, a := 0x80, n := true } := by decide

theorem test_tsx : seen .tsx (onCpu { cpu0 with s := 0x00, x := 0x07 }) = { cpu0 with s := 0x00, z := true } := by decide

theorem test_txs : seen .txs (onCpu cpu0) = { cpu0 with s := 0x00 } := by decide

-- Section 3: arithmetic, logic, compares, shifts.

theorem test_adc_overflow : seen (.adcImm 0x01) (onCpu { cpu0 with a := 0x7F }) =
    { cpu0 with a := 0x80, n := true, v := true } := by decide

theorem test_adc_carry_and_decimal :
    seen (.adcImm 0x00) (onCpu { cpu0 with a := 0xFF, c := true }) = { cpu0 with a := 0x00, z := true, c := true } ∧
    (seen (.adcImm 0x01) (onCpu { cpu0 with a := 0x09, d := true })).a = 0x0A := by decide

theorem test_sbc_borrow : seen (.sbcImm 0x01) (onCpu { cpu0 with c := true }) = { cpu0 with a := 0xFF, n := true } := by decide

theorem test_sbc_overflow : seen (.sbcImm 0x01) (onCpu { cpu0 with a := 0x80, c := true }) =
    { cpu0 with a := 0x7F, v := true, c := true } := by decide

theorem test_cmp : seen (.cmpImm 0x80) (onCpu { cpu0 with a := 0x01, v := true }) =
    { cpu0 with a := 0x01, n := true, v := true } := by decide

theorem test_cpx : seen (.cpxImm 0x10) (onCpu { cpu0 with x := 0x10 }) = { cpu0 with x := 0x10, z := true, c := true } := by
  decide

theorem test_cpy : seen (.cpyImm 0x00) (onCpu { cpu0 with y := 0xFF }) = { cpu0 with y := 0xFF, n := true, c := true } := by
  decide

theorem test_and : seen (.andImm 0x3C) (onCpu { cpu0 with a := 0xF0 }) = { cpu0 with a := 0x30 } := by decide

theorem test_ora : seen (.oraImm 0x80) (onCpu { cpu0 with a := 0x01 }) = { cpu0 with a := 0x81, n := true } := by decide

theorem test_eor : seen (.eorImm 0xFF) (onCpu { cpu0 with a := 0xFF }) = { cpu0 with a := 0x00, z := true } := by decide

theorem test_bit : seen (.bitZp 0x10) (onCpu { cpu0 with a := 0x01 } [(0x10, 0xC0)]) =
    { cpu0 with a := 0x01, n := true, v := true, z := true } := by decide

theorem test_inc : (after (.incZp 0x10) (onCpu cpu0 [(0x10, 0x7F)])).ram = [(0x10, 0x80)] ∧
    (seen (.incZp 0x10) (onCpu cpu0 [(0x10, 0x7F)])).n = true := by decide

theorem test_inc_to_zero : (after (.incZp 0x10) (onCpu { cpu0 with c := true } [(0x10, 0xFF)])).ram = [] ∧
    seen (.incZp 0x10) (onCpu { cpu0 with c := true } [(0x10, 0xFF)]) = { cpu0 with c := true, z := true } := by decide

theorem test_dec : (after (.decZp 0x10) (onCpu cpu0)).ram = [(0x10, 0xFF)] := by decide

theorem test_inx : seen .inx (onCpu { cpu0 with x := 0xFF }) = { cpu0 with z := true } := by decide

theorem test_iny : seen .iny (onCpu { cpu0 with y := 0x7F }) = { cpu0 with y := 0x80, n := true } := by decide

theorem test_dex : seen .dex (onCpu { cpu0 with x := 0x01 }) = { cpu0 with z := true } := by decide

theorem test_dey : seen .dey (onCpu cpu0) = { cpu0 with y := 0xFF, n := true } := by decide

theorem test_asl : seen .aslAcc (onCpu { cpu0 with a := 0xC1 }) = { cpu0 with a := 0x82, n := true, c := true } := by decide

theorem test_lsr : seen .lsrAcc (onCpu { cpu0 with a := 0x01, c := true }) = { cpu0 with a := 0x00, z := true, c := true } := by
  decide

theorem test_rol : seen .rolAcc (onCpu { cpu0 with a := 0x80, c := true }) = { cpu0 with a := 0x01, c := true } := by decide

theorem test_ror : seen .rorAcc (onCpu { cpu0 with a := 0x01, c := true }) = { cpu0 with a := 0x80, n := true, c := true } := by
  decide

theorem test_asl_memory : (after (.aslZp 0x10) (onCpu cpu0 [(0x10, 0xFF)])).ram = [(0x10, 0xFE)] := by decide

theorem test_ror_memory : (after (.rorZp 0x10) (onCpu { cpu0 with c := true } [(0x10, 0x80)])).ram = [(0x10, 0xC0)] := by decide

-- Section 4.1: branches, jumps, calls; PC is already past the instruction.

theorem test_bcc : (seen (.bccRel 0x10) (onCpu { cpu0 with pc := 0x8002 })).pc = 0x8012 ∧
    (seen (.bccRel 0x10) (onCpu { cpu0 with pc := 0x8002, c := true })).pc = 0x8002 := by decide

theorem test_bcs : (seen (.bcsRel 0xFE) (onCpu { cpu0 with pc := 0x8002, c := true })).pc = 0x8000 := by decide

theorem test_beq : (seen (.beqRel 0xF0) (onCpu { cpu0 with pc := 0x8012, z := true })).pc = 0x8002 := by decide

theorem test_bne : (seen (.bneRel 0x20) (onCpu { cpu0 with pc := 0x80F2 })).pc = 0x8112 := by decide

theorem test_bmi : (seen (.bmiRel 0x7F) (onCpu { cpu0 with pc := 0x8002, n := true })).pc = 0x8081 := by decide

theorem test_bpl : (seen (.bplRel 0x80) (onCpu { cpu0 with pc := 0x8102 })).pc = 0x8082 := by decide

theorem test_bvc : (seen (.bvcRel 0x20) (onCpu { cpu0 with pc := 0xFFF2 })).pc = 0x0012 := by decide

theorem test_bvs : (seen (.bvsRel 0xFC) (onCpu { cpu0 with pc := 0x8002, v := true })).pc = 0x7FFE := by decide

theorem test_jmp : (seen (.jmpAbs 0x1234) (onCpu cpu0)).pc = 0x1234 := by decide

theorem test_jmp_indirect_page_wrap :
    (seen (.jmpInd 0x02FF) (onCpu cpu0 [(0x200, 0x90), (0x300, 0x80)])).pc = 0x9000 := by decide

theorem test_jsr : (after (.jsrAbs 0x9000) (onCpu { cpu0 with pc := 0x8003 })).ram = [(0x1FC, 0x02), (0x1FD, 0x80)] ∧
    seen (.jsrAbs 0x9000) (onCpu { cpu0 with pc := 0x8003 }) = { cpu0 with s := 0xFB, pc := 0x9000 } := by decide

theorem test_jsr_stack_wrap :
    (after (.jsrAbs 0x1234) (onCpu { cpu0 with pc := 0x8101, s := 0x01 })).ram = [(0x101, 0x81)] ∧
    (seen (.jsrAbs 0x1234) (onCpu { cpu0 with pc := 0x8101, s := 0x01 })).s = 0xFF := by decide

theorem test_rts : seen .rts (onCpu { cpu0 with s := 0xFB } [(0x1FC, 0x02), (0x1FD, 0x80)]) = { cpu0 with pc := 0x8003 } := by
  decide

theorem test_rti : seen .rti (onCpu { cpu0 with s := 0xFA, c := true } [(0x1FB, 0x30), (0x1FC, 0x02), (0x1FD, 0x80)]) =
    { cpu0 with pc := 0x8002 } := by decide

-- Section 4.2: stack and flags.

theorem test_pha_wrap : (after .pha (onCpu { cpu0 with a := 0x42, s := 0x00 })).ram = [(0x100, 0x42)] ∧
    (seen .pha (onCpu { cpu0 with a := 0x42, s := 0x00 })).s = 0xFF := by decide

theorem test_pla_wrap : seen .pla (onCpu { cpu0 with s := 0xFF } [(0x100, 0x80)]) =
    { cpu0 with a := 0x80, n := true, s := 0x00 } := by decide

theorem test_php : (after .php (onCpu { cpu0 with c := true })).ram = [(0x1FD, 0x31)] ∧
    (after .php (onCpu { cpu0 with n := true, d := true, c := true })).ram = [(0x1FD, 0xB9)] := by decide

theorem test_plp : seen .plp (onCpu { cpu0 with s := 0xFC } [(0x1FD, 0xCF)]) =
    { cpu0 with n := true, v := true, d := true, i := true, z := true, c := true } := by decide

theorem test_clear_flags :
    (seen .clc (onCpu { cpu0 with c := true })).c = false ∧ (seen .cli (onCpu { cpu0 with i := true })).i = false ∧
    (seen .cld (onCpu { cpu0 with d := true })).d = false ∧ (seen .clv (onCpu { cpu0 with v := true })).v = false := by decide

theorem test_set_flags :
    seen .sec (onCpu cpu0) = { cpu0 with c := true } ∧ seen .sei (onCpu cpu0) = { cpu0 with i := true } ∧
    seen .sed (onCpu cpu0) = { cpu0 with d := true } := by decide

theorem test_nop : after .nop (onCpu cpu0) = onCpu cpu0 := by decide

-- Section 9: bus faults.

theorem test_read_fault : raised (.ldaAbs 0x5000) (onCpu cpu0) = some (.busUnmappedRead 0x5000) ∧
    raised (.ldaAbs 0x4018) (onCpu cpu0) = some (.busUnmappedRead 0x4018) ∧ raised (.ldaAbs 0x4000) (onCpu cpu0) = none := by
  decide

theorem test_write_fault :
    raised (.staAbs 0x5000) (onCpu { cpu0 with a := 0x11 }) = some (.busUnmappedWrite 0x5000 0x11) ∧
    raised (.incAbs 0x8000) { (onCpu cpu0) with cart := { Cartridge.absent with prg := [[], [], [], []] } } =
      some (.prgRomWrite 0x8000 0x01) := by decide

/-! ## Devices, mapper and loader; the expected results are rows of 95_test_vectors.md -/

/-- The state after a bus write. -/
def wrote (a : Word) (v : Byte) (s : State) : State :=
  match memWrite a v s with
  | .ok _ t => t
  | .stop (.fatal _ t) => t

/-- The state after a bus read. -/
def readAt (a : Word) (s : State) : State :=
  match memRead a s with
  | .ok _ t => t
  | .stop (.fatal _ t) => t

/-- The byte of a bus read. -/
def valueAt (a : Word) (s : State) : Byte :=
  match memRead a s with
  | .ok v _ => v
  | .stop _ => 0

/-- The power-up state with a PPU of the test's own. -/
def onPpu (p : Ppu) : State := { State.reset with ppu := p }

-- Section 5.1: register protocols.

theorem test_ppu_scroll_then_ctrl :
    (wrote 0x2005 0x7D State.reset).ppu.t = 0x000F ∧ (wrote 0x2005 0x7D State.reset).ppu.x = 5 ∧
    (wrote 0x2005 0x5E (wrote 0x2005 0x7D State.reset)).ppu.t = 0x616F ∧
    (wrote 0x2000 0x03 (wrote 0x2005 0x5E (wrote 0x2005 0x7D State.reset))).ppu.t = 0x6D6F := by decide

theorem test_ppu_addr : (wrote 0x2006 0x00 (wrote 0x2006 0xFF State.reset)).ppu.v = 0x3F00 ∧
    (wrote 0x2006 0x08 (readAt 0x2002 (wrote 0x2006 0x21 State.reset))).ppu.t = 0x0800 := by decide

theorem test_ppu_palette_write : (wrote 0x2007 0x30 (onPpu { Ppu.powerUp with v := 0x3F10 })).ppu.pal = [(0, 0x30)] ∧
    (wrote 0x2007 0xFF (onPpu { Ppu.powerUp with v := 0x3F00 })).ppu.pal = [(0, 0x3F)] := by decide

theorem test_ppu_data_increment :
    (wrote 0x2007 1 (wrote 0x2007 1 (onPpu { Ppu.powerUp with ctrl := 0x04, v := 0x2000 }))).ppu.v = 0x2040 ∧
    (wrote 0x2007 1 (onPpu { Ppu.powerUp with v := 0x3FFF })).ppu.v = 0x4000 := by decide

theorem test_ppu_mirroring :
    (wrote 0x2007 0x5A (onPpu { Ppu.powerUp with v := 0x2400 })).ppu.ciram = [(0, 0x5A)] ∧
    (wrote 0x2007 0x5A { onPpu { Ppu.powerUp with v := 0x2400 } with
      cart := { Cartridge.absent with hdrMirroring := true } }).ppu.ciram = [(0x400, 0x5A)] := by decide

theorem test_ppu_buffered_read :
    valueAt 0x2007 (onPpu { Ppu.powerUp with v := 0x2000, buffer := 0x11, ciram := [(0, 0x22)] }) = 0x11 ∧
    valueAt 0x2007 (readAt 0x2007 (onPpu { Ppu.powerUp with v := 0x2000, buffer := 0x11, ciram := [(0, 0x22)] })) = 0x22 := by
  decide

theorem test_ppu_palette_read_fills_buffer :
    (readAt 0x2007 (onPpu { Ppu.powerUp with v := 0x3F01, pal := [(1, 0x2A)], ciram := [(0x701, 0x66)] })).ppu.buffer = 0x66 ∧
    (readAt 0x2007 (onPpu { Ppu.powerUp with v := 0x3F01 })).ppu.v = 0x3F02 := by decide

theorem test_oam_data : (wrote 0x2004 2 (wrote 0x2004 1 (onPpu { Ppu.powerUp with oamaddr := 0xFF }))).ppu.oam = [(0, 2), (0xFF, 1)] ∧
    (readAt 0x2004 (onPpu { Ppu.powerUp with oamaddr := 0x10 })).ppu.oamaddr = 0x10 := by decide

-- Section 5.2: status reads.

theorem test_status_race :
    (readAt 0x2002 (onPpu { Ppu.powerUp with scanline := 241, pixel := 0 })).ppu.nmiInhibit = true ∧
    (readAt 0x2002 { onPpu { Ppu.powerUp with scanline := 241, pixel := 1, vbl := true } with latch := .nmi }).latch = .none ∧
    (readAt 0x2002 (onPpu { Ppu.powerUp with scanline := 245, pixel := 100, vbl := true, w := true })).ppu.w = false := by decide

-- Section 5.3 and 1.5: positions.

theorem test_scroll_increments : incCoarseX 0x001F = 0x0400 ∧ incY (incCoarseX 0x73A0) = 0x0801 ∧
    incY (incCoarseX 0x73E0) = 0x0001 ∧ incY (incCoarseX 0x0000) = 0x1001 := by decide

theorem test_scroll_reload :
    scrollReload { Ppu.powerUp with scanline := 5, v := 0x7BE0, t := 0x041F } = { Ppu.powerUp with scanline := 5, v := 0x7FFF, t := 0x041F } := by
  decide

theorem test_position_wraps :
    (advancePosition { Ppu.powerUp with scanline := 260, pixel := 340 }).scanline = -1 ∧
    (advancePosition { Ppu.powerUp with scanline := 260, pixel := 340 }).odd = true ∧
    (advancePosition { Ppu.powerUp with pixel := 336, odd := true, mask := 0x08 }).pixel = 338 ∧
    (advancePosition { Ppu.powerUp with pixel := 336, mask := 0x08 }).pixel = 337 := by decide

/-- A PPU whose sprite 0 is one 8 x 8 tile at (100, 50), attribute 0x21, drawn on line 51 on. -/
def spritePpu : Ppu := { Ppu.powerUp with oam := [(0, 50), (2, 0x21), (3, 100)], mask := 0x1E }

theorem test_sprite_column :
    Grid.get none (paintSpriteColumn 0x21 100 0x80 0x80 true 51 0 []) 51 100 = some ⟨0x17, true, true⟩ ∧
    paintSpriteColumn 0x21 250 0xFF 0xFF true 51 6 [] = [] ∧
    Grid.get none (paintSpriteColumn 0x40 100 0x00 0x01 false 51 0 []) 51 100 = some ⟨0x11, false, false⟩ := by decide

theorem test_sprite_zero_hit :
    spriteZeroHit spritePpu 100 1 (some ⟨0x17, true, true⟩) = true ∧ spriteZeroHit spritePpu 255 1 (some ⟨0x17, true, true⟩) = false ∧
    spriteZeroHit spritePpu 3 0 (some ⟨0x17, true, true⟩) = false := by decide

theorem test_pixel_priority : pixelIndex 1 0x05 (some ⟨0x17, true, true⟩) = 0x05 ∧
    pixelIndex 1 0x05 (some ⟨0x17, false, true⟩) = 0x17 ∧ pixelIndex 0 0x05 (some ⟨0x17, true, true⟩) = 0x17 ∧
    pixelIndex 0 0x05 none = 0 := by decide

-- Section 6: APU.

/-- The writes of the 0x4015 scenario, up to its fourth. -/
def scenario : State := wrote 0x400F 0x08 (wrote 0x400B 0xF8 (wrote 0x4003 0x08 (wrote 0x4015 0x07 State.reset)))

theorem test_apu_enables : scenario.apu.pulse1.length = 254 ∧ scenario.apu.triangle.length = 30 ∧ scenario.apu.noise.length = 0 ∧
    (wrote 0x4015 0x80 scenario).apu.pulse1.length = 0 ∧ (wrote 0x4015 0x80 scenario).apu.triangle.length = 0 := by decide

theorem test_frame_irq : (frameSequencerTick { State.reset with
      apu := { Apu.powerUp with frame := { FrameSeq.powerUp with fcount := 14913 } } }).latch = .irqBrk ∧
    (frameSequencerTick { State.reset with
      apu := { Apu.powerUp with frame := { FrameSeq.powerUp with fcount := 14913 } } }).apu.frame =
        { FrameSeq.powerUp with frameIrq := true } := by decide

theorem test_envelope : Nat.repeat Envelope.clock 5 { Envelope.powerUp with vol := 3, start := true } =
    { Envelope.powerUp with vol := 3, div := 3, decay := 14 } := by decide

theorem test_sweep_target :
    ({ Pulse.powerUp with period := 0x100, sweepShift := 1, sweepNeg := true } : Pulse).target true = 0x07F ∧
    ({ Pulse.powerUp with period := 0x100, sweepShift := 1, sweepNeg := true } : Pulse).target false = 0x080 ∧
    ({ Pulse.powerUp with period := 0x7FF } : Pulse).muted true = true ∧
    ({ Pulse.powerUp with period := 0x007 } : Pulse).muted true = true := by decide

theorem test_noise_shift : noiseShift false 0x0001 = 0x4000 ∧ noiseShift false 0x4000 = 0x2000 ∧ noiseShift true 0x0001 = 0x4000 := by
  decide

theorem test_dmc_level : dmcLevel { Dmc.powerUp with level := 126, silence := false, shift := 1 } = 126 := by decide

theorem test_dmc_fetch : ({ Dmc.powerUp with curAddr := 0xFFFF, bytesLeft := 1, irqEn := true } : Dmc).fetched 0x55 =
    { Dmc.powerUp with curAddr := 0x8000, bytesLeft := 0, irqEn := true, irqFlag := true, buffer := 0x55, bufferFull := true } := by
  decide

theorem test_dmc_start :
    (wrote 0x4015 0x10 (wrote 0x4013 0x01 (wrote 0x4012 0x00 State.reset))).apu.dmc.bytesLeft = 16 ∧
    (wrote 0x4015 0x10 (wrote 0x4013 0x01 (wrote 0x4012 0x00 State.reset))).apu.dmc.curAddr = 0xC001 ∧
    (wrote 0x4015 0x10 (wrote 0x4013 0x01 (wrote 0x4012 0x00 State.reset))).clock.deferred = 4 := by decide

theorem test_mixer : pulseMix 0 = 0 ∧ pulseMix 1 = 9552 / 822800 ∧ tndMix 1 = 16367 / 2442900 := by decide +kernel

-- Section 7: mappers. A console of mapper `m` with `n` PRG and `c` CHR pages.

/-- A console with blank pages. -/
def banked (m : Mapper) (n c : Nat) : State :=
  { State.reset with
    loaded := true
    cart := { Cartridge.absent with prg := List.replicate n [], chr := List.replicate c [] }
    mapper := m
    win := m.windows n }

/-- Five writes to one address. -/
def wrote5 (a : Word) (v : Vector Byte 5) (s : State) : State :=
  wrote a v[4] (wrote a v[3] (wrote a v[2] (wrote a v[1] (wrote a v[0] s))))

/-- Mapper 1 at power-up. -/
def mmc1 : Mapper := .mapper1 { shift := 0, count := 0, control := 0x0C, chr0 := 0, chr1 := 0, prg := 0 }

theorem test_mapper2 : (wrote 0xC123 0x03 (banked (.mapper2 0) 16 8)).win.prg = #v[6, 7, 14, 15] ∧
    (wrote 0x8000 0x08 (banked (.mapper2 0) 16 8)).fault = some (.bankOverflow 0x8000 0x08 (.prg 0)) ∧
    (wrote 0x8000 0x08 (banked (.mapper2 0) 16 8)).win.prg = #v[0, 1, 14, 15] ∧
    (wrote 0x8000 0x08 (banked (.mapper2 0) 16 8)).mapper = .mapper2 0x08 := by decide

theorem test_mapper3 : (wrote 0x8000 0x03 (banked (.mapper3 0) 2 32)).win.chr = #v[24, 25, 26, 27, 28, 29, 30, 31] ∧
    (wrote 0x8000 0x04 (banked (.mapper3 0) 2 32)).fault = some (.bankOverflow 0x8000 0x04 (.chr 0)) ∧
    (wrote 0x8000 0x04 (banked (.mapper3 0) 2 32)).mapper = .mapper3 0x04 := by decide

theorem test_mapper1_banks :
    (wrote5 0xE000 #v[1, 0, 1, 0, 0] (banked mmc1 16 16)).win.prg = #v[10, 11, 14, 15] ∧
    (wrote5 0x8000 #v[0, 0, 0, 1, 0] (wrote5 0xE000 #v[1, 0, 1, 0, 0] (banked mmc1 16 16))).win.prg = #v[0, 1, 10, 11] ∧
    (wrote5 0x8000 #v[0, 0, 0, 0, 0] (wrote5 0xE000 #v[1, 0, 1, 0, 0] (banked mmc1 16 16))).win.prg = #v[8, 9, 10, 11] := by decide

/-- The last row of 95_test_vectors.md 7.2: the fifth write faults with prg = 0x1F written and the windows as they were. -/
theorem test_mapper1_overflow :
    let s := wrote5 0xE000 #v[1, 1, 1, 1, 1] (wrote5 0x8000 #v[0, 0, 0, 0, 0] (banked mmc1 16 16))
    s.mapper = .mapper1 { shift := 0, count := 0, control := 0, chr0 := 0, chr1 := 0, prg := 0x1F } ∧
    s.win.prg = #v[0, 1, 2, 3] ∧ s.fault = some (.bankOverflow 0xE000 0x01 (.prg 0)) := by decide +kernel

theorem test_mapper1_abort :
    (wrote 0x8000 0x80 (wrote 0x8000 1 (wrote5 0x8000 #v[1, 1, 0, 0, 1] (banked mmc1 16 16)))).mapper =
      .mapper1 { shift := 0, count := 0, control := 0x1F, chr0 := 0, chr1 := 0, prg := 0 } := by decide

theorem test_mapper4 :
    (wrote 0x8001 0x09 (wrote 0x8000 0x07 (wrote 0x8001 0x05 (wrote 0x8000 0x06
      (banked (.mapper4 ⟨0, Vector.replicate 8 0, true⟩) 32 256))))).win.prg = #v[5, 9, 30, 31] ∧
    (wrote 0x8001 0x11 (wrote 0x8000 0x00
      (banked (.mapper4 ⟨0, Vector.replicate 8 0, true⟩) 32 256))).win.chr = #v[0x10, 0x11, 0, 1, 0, 0, 0, 0] := by decide +kernel

-- Section 8: controllers.

theorem test_controller :
    Nat.repeat (fun s => readAt 0x4016 s) 3 (wrote 0x4016 0 (wrote 0x4016 1 (setControllerState 0 0x09 State.reset)))
      |>.pads.pad0.bit false := by decide

-- Section 1.1: load results that an image's first bytes decide.

/-- Why an image does not load. -/
def loadError (bytes : List Byte) : Option LoadError :=
  match loadCartridge InitMem.unlisted bytes with
  | .error e => some e
  | .ok _ => none

theorem test_load_errors : loadError [0x4E, 0x45] = some .badSignature ∧
    loadError ([0x4E, 0x45, 0x53, 0x1A] ++ List.replicate 12 7) = some .headerOnly ∧
    loadError ([0x4E, 0x45, 0x53, 0x1A] ++ List.replicate 6 0) = some .badLength ∧
    loadError ([0x4E, 0x45, 0x53, 0x1A, 1, 1] ++ List.replicate 20 0) = some .badLength := by decide +kernel

-- Sections 1.7, 4.3 and 8: whole steps. An instruction stands in work RAM at 0x0000, where a blank console's PC points.

/-- The state a step gives. -/
def stepped (s : State) : State :=
  match step s with
  | .next t => t
  | .fault (.fatal _ t) => t
  | .refused _ => s

theorem test_step_inx : (stepped (State.reset.withFetchWord 8 0xE8)).cpu.x = 1 ∧
    (stepped (State.reset.withFetchWord 8 0xE8)).cpu.pc = 1 ∧
    (stepped (State.reset.withFetchWord 8 0xE8)).clock.totalCycles = 2 ∧
    (stepped (State.reset.withFetchWord 8 0xE8)).ppu.pixel = 6 := by decide +kernel

/-- A console whose vectors are NMI 0xA000, Reset 0x8000 and IRQ 0x9000, about to run `op` at 0x8000 of its PRG. -/
def vectored (op : Byte) (c : Cpu) : State :=
  { banked .mapper0 4 8 with
    cart := { Cartridge.absent with
      prg := [Memory.ofBytes [op], [], [], [(0x1FFB, 0xA0), (0x1FFD, 0x80), (0x1FFF, 0x90)]], chr := List.replicate 8 [] }
    cpu := { c with pc := 0x8000 } }

theorem test_step_brk : (stepped (vectored 0x00 cpu0)).ram = [(0x1FB, 0x30), (0x1FC, 0x02), (0x1FD, 0x80)] ∧
    (stepped (vectored 0x00 cpu0)).cpu = { cpu0 with s := 0xFA, i := true, pc := 0x9000 } ∧
    (stepped (vectored 0x00 cpu0)).out.cycles = 7 ∧ (stepped (vectored 0x00 cpu0)).clock.deferred = 0 := by decide +kernel

/-- The console two pixels before VBlank, with NMIs enabled. -/
def beforeVBlank (op : Byte) (c : Cpu) : State :=
  { vectored op c with ppu := { Ppu.powerUp with ctrl := 0x80, scanline := 240, pixel := 339 } }

theorem test_step_nmi : (stepped (beforeVBlank 0xEA { cpu0 with c := true })).ram = [(0x1FB, 0x21), (0x1FC, 0x01), (0x1FD, 0x80)] ∧
    (stepped (beforeVBlank 0xEA { cpu0 with c := true })).cpu = { cpu0 with c := true, s := 0xFA, i := true, pc := 0xA000 } ∧
    (stepped (beforeVBlank 0xEA { cpu0 with c := true })).clock.deferred = 7 := by decide +kernel

theorem test_step_brk_and_nmi : (stepped (beforeVBlank 0x00 cpu0)).cpu.pc = 0xA000 ∧
    (stepped (beforeVBlank 0x00 cpu0)).ram = [(0x1FB, 0x30), (0x1FC, 0x02), (0x1FD, 0x80)] := by decide +kernel

theorem test_step_cli_irq :
    (stepped { vectored 0x58 { cpu0 with i := true } with latch := .irqBrk }).cpu = { cpu0 with s := 0xFA, i := true, pc := 0x9000 } ∧
    (stepped { vectored 0x58 { cpu0 with i := true } with latch := .irqBrk }).ram = [(0x1FB, 0x20), (0x1FC, 0x01), (0x1FD, 0x80)] := by
  decide +kernel

theorem test_step_unknown_opcode : (stepped (vectored 0x02 cpu0)).fault = some (.unknownOpcode 0x8000 0x02) ∧
    (stepped (vectored 0x02 cpu0)).cpu.pc = 0x8001 := by decide +kernel

theorem test_oam_dma :
    (wrote 0x4014 0x02
      { onPpu { Ppu.powerUp with oamaddr := 0x10 } with ram := [(0x200, 0xAA), (0x2FF, 0xBB)] }).ppu.oam = [(0x0F, 0xBB), (0x10, 0xAA)] ∧
    (wrote 0x4014 0x02 State.reset).clock.dmaCycles = 513 ∧
    (wrote 0x4014 0x41 State.reset).fault = some (.busUnmappedRead 0x4100) := by decide +kernel

/-! ## Witnesses: states and operands that meet the hypotheses of each statement, clause by clause, at the ends of ranges -/

/-- Does a step go on? -/
def goesOn (r : Result) : Bool :=
  match r with
  | .next _ => true
  | .fault _ => false
  | .refused _ => false

theorem goesOn_next {r : Result} (h : goesOn r = true) : ∃ t, r = .next t := by
  cases r with
  | next t => exact ⟨t, rfl⟩
  | fault f => cases h
  | refused q => cases h

/-- A blank console about to run a NOP. -/
def console : State := State.reset.withFetchWord 8 0xEA

/-- The console's step goes on. -/
theorem witness_step : ∃ t, step console = .next t := goesOn_next (by decide +kernel)

theorem witness_OnlyEncodingsDecode : decode [0xA9, 0x80, 0xFF] = .ok (.ldaImm 0x80, [0xFF]) := rfl

theorem witness_IllegalOpcodeFaults :
    ((vectored 0x02 cpu0).fault = none ∧ (vectored 0x02 cpu0).loaded = true ∧
      (∃ t, memRead (vectored 0x02 cpu0).cpu.pc (beginStep (vectored 0x02 cpu0)) = .ok 0x02 t) ∧
      (0x02 : Byte).toNat ∈ illegalOpcodes) ∧
    ((vectored 0xFF cpu0).fault = none ∧ (vectored 0xFF cpu0).loaded = true ∧
      (∃ t, memRead (vectored 0xFF cpu0).cpu.pc (beginStep (vectored 0xFF cpu0)) = .ok 0xFF t) ∧
      (0xFF : Byte).toNat ∈ illegalOpcodes) :=
  ⟨⟨rfl, rfl, ⟨_, rfl⟩, by decide⟩, ⟨rfl, rfl, ⟨_, rfl⟩, by decide⟩⟩

/-- A blank console whose OAM begins with the byte `op`, with PC at `pc`. -/
def fetchingAt (pc : Word) (op : Byte) : State :=
  { console with cpu := { console.cpu with pc := pc }, ppu := { Ppu.powerUp with oam := [(0, op)] } }

/-- Bytes in memory; PC in the hole; one, two and three bytes from PPU registers; an operand byte in the hole behind 0x4017. -/
theorem witness_StepRunsDecodedInstruction :
    (console.fault = none ∧ console.loaded = true ∧ decode [0xEA] = .ok (.nop, []) ∧
      ∀ k (h : k < [(0xEA : Byte)].length), console.byteAt (console.cpu.pc + BitVec.ofNat 16 k) = some [(0xEA : Byte)][k]) ∧
    (∀ pc op, (fetchingAt pc op).fault = none ∧ (fetchingAt pc op).loaded = true) ∧
    (regionOf 0x4018 = .unmapped ∧ regionOf 0x5FFF = .unmapped) ∧
    ((∃ t, memRead 0x2004 (beginStep (fetchingAt 0x2004 0xEA)) = .ok 0xEA t) ∧ decode [0xEA] = .ok (.nop, [])) ∧
    (∃ b1 b2 t u w, memRead 0x2004 (beginStep (fetchingAt 0x2004 0xAD)) = .ok 0xAD t ∧
      memRead (0x2004 + 1) (t.setPc (0x2004 + 1)) = .ok b1 u ∧
      memRead (0x2004 + 2) (u.setPc (0x2004 + 2)) = .ok b2 w ∧ decode [0xAD, b1, b2] = .ok (.ldaAbs (wordOf b2 b1), [])) ∧
    (∃ b1 t u, memRead 0x2004 (beginStep (fetchingAt 0x2004 0xA9)) = .ok 0xA9 t ∧
      memRead (0x2004 + 1) (t.setPc (0x2004 + 1)) = .ok b1 u ∧ decode [0xA9, b1] = .ok (.ldaImm b1, [])) ∧
    (∃ op t, memRead 0x4017 (beginStep (fetchingAt 0x4017 0)) = .ok op t ∧ regionOf (0x4017 + 1) = .unmapped) ∧
    (∃ op b1 t u, memRead 0x4016 (beginStep (fetchingAt 0x4016 0)) = .ok op t ∧
      memRead (0x4016 + 1) (t.setPc (0x4016 + 1)) = .ok b1 u ∧ regionOf (0x4016 + 2) = .unmapped) :=
  ⟨⟨rfl, rfl, rfl, by decide +kernel⟩, fun _ _ => ⟨rfl, rfl⟩, ⟨by decide, by decide⟩, ⟨⟨_, rfl⟩, rfl⟩,
   ⟨_, _, _, _, _, rfl, rfl, rfl, rfl⟩, ⟨_, _, _, rfl, rfl, rfl⟩, ⟨_, _, rfl, by decide⟩, ⟨_, _, _, _, rfl, rfl, by decide⟩⟩

theorem witness_StepClock :
    State.reset.clock.accPpu = 0 ∧ 2 = baseCycles .nop + State.reset.clock.dmaCycles + State.reset.clock.deferred ∧
    ∃ t, step console = .next t :=
  ⟨rfl, rfl, witness_step⟩

/-- The console with `a` master cycles owed to the sampler and the batch `b`. -/
def owing (a : Nat) (b : List Rat) : State := { console with clock := { console.clock with accSample := a }, batch := b }

/-- An APU at power-up with one tick owed goes on. -/
theorem drainApu_powerUp {s : State} (h : s.apu = State.reset.apu) (hc : s.clock.accApu = 24) : ∃ t, drainApu s = .ok () t := by
  have hd : ∀ u : State, u.apu.dmc.bytesLeft = 0 → dmcReaderCheck u = .ok () u := by
    intro u hu; unfold dmcReaderCheck; simp [hu]
  have ht : ∀ u : State, u.apu = State.reset.apu → ∃ t, apuTick u = .ok () t := by
    intro u hu
    refine ⟨_, (apuTick_eq u).trans (hd _ ?_)⟩
    unfold frameSequencerTick; rw [hu]
    exact (by decide +kernel : State.reset.apu.frameTick.timersTick.dmc.bytesLeft = 0)
  unfold drainApu
  rw [hc]
  obtain ⟨t, ht⟩ := ht { s with clock := { s.clock with accApu := 24 % Config.masterPerApu } } h
  exact ⟨t, Res.bind_eq_ok.2 ⟨(), t, ht, rfl⟩⟩

/-- The step of that console goes on, and delivers what the samples owed complete. -/
theorem owing_step (a : Nat) (b : List Rat) : ∃ t x, step (owing a b) = .next t ∧
    t.out.batches = (appendSamples ((a + 24) / Config.sampleDivisor) x b).2 := by
  let v := (beginStep (owing a b)).setPc 1
  have hp : drainPpu (chargeCycles .nop v) = _ := ppuTicks_frame _ _
  obtain ⟨w, hd⟩ := drainApu_powerUp (s := drainPpu (chargeCycles .nop v)) (by rw [hp]; rfl) (by rw [hp]; rfl)
  have hw : w = _ := apuTicks_frame hd
  refine ⟨_, w.apu.output, step_eq_next.2 ⟨rfl, rfl, .nop, v, v, _, rfl, rfl, hd, rfl⟩, ?_⟩
  rw [resolveInterrupt_frame]
  unfold emitSamples
  rw [hw, hp]; rfl
/-- Enough samples to fill a batch deliver one. -/
theorem appendSamples_delivers {n : Nat} {x : Rat} {b : List Rat} (h : b.length < Config.audioBatch)
    (hn : Config.audioBatch ≤ b.length + n) : (appendSamples n x b).2 ≠ [] := by
  induction n generalizing b with
  | zero => omega
  | succ n ih =>
    unfold appendSamples
    dsimp only
    split
    · exact List.cons_ne_nil _ _
    · rename_i hne
      rw [List.length_append, List.length_singleton] at hne
      exact ih (by rw [List.length_append, List.length_singleton]; omega)
        (by rw [List.length_append, List.length_singleton]; omega)

/-- A batch that is full already, which no run reaches, delivers nothing. -/
theorem appendSamples_none {n : Nat} {x : Rat} {b : List Rat} (h : Config.audioBatch ≤ b.length) :
    (appendSamples n x b).2 = [] := by
  induction n generalizing b with
  | zero => rfl
  | succ n ih =>
    unfold appendSamples
    dsimp only
    rw [if_neg (by rw [List.length_append, List.length_singleton]; omega)]
    exact ih (by rw [List.length_append, List.length_singleton]; omega)
/-- Where PC stands after a run. -/
def pcAfter (r : Result) : Option Word :=
  match r with
  | .next t => some t.cpu.pc
  | .fault _ => none
  | .refused _ => none

/-- The idle loops of R432: `JMP *`, and `BCS *` with C = 1. -/
theorem test_idle_loops :
    pcAfter (runSteps 1 (State.reset.withFetchWord 24 0x00004C)) = some 0 ∧
    pcAfter (runSteps 1 ({ State.reset with cpu := { State.reset.cpu with c := true } }.withFetchWord 16 0xFEB0)) = some 0 := by
  decide +kernel

/-- Faulted, unloaded and running consoles; a step that delivers a batch, one that delivers none, and one that faults; a call that
a delivered batch ends, and one that a fault ends. -/
theorem witness_StepRefusals :
    ({ State.reset with fault := some (.busUnmappedRead 0x5000) }).fault = some (.busUnmappedRead 0x5000) ∧
    (State.reset.fault = none ∧ State.reset.loaded = false) ∧ (console.fault = none ∧ console.loaded = true) ∧
    (∃ s t, step s = .next t ∧ t.out.batches ≠ [] ∧ runUntilAudioBufferFull 1 s = .next t) ∧
    (∃ s t, step s = .next t ∧ t.out.batches = []) ∧
    (∃ s f, step s = .fault f ∧ runUntilAudioBufferFull 1 s = .fault f) ∧
    (∃ s record left, runSteps 1 s = .fault (.fatal record left)) := by
  refine ⟨rfl, ⟨rfl, rfl⟩, ⟨rfl, rfl⟩, ?_, ?_, ?_, ?_⟩
  · obtain ⟨t, x, hs, ht⟩ := owing_step (Config.audioBatch * Config.sampleDivisor) []
    have full : t.out.batches ≠ [] := by
      rw [ht]
      refine appendSamples_delivers (Nat.zero_lt_succ _) ?_
      rw [List.length_nil, Nat.zero_add]
      exact (Nat.le_div_iff_mul_le (Nat.zero_lt_succ _)).2 (Nat.le_add_right _ _)
    refine ⟨_, t, hs, full, ?_⟩
    rw [runUntilAudioBufferFull, hs]
    exact if_neg (by rw [List.isEmpty_iff]; exact full)
  · obtain ⟨t, x, hs, ht⟩ := owing_step 0 (List.replicate Config.audioBatch 0)
    exact ⟨_, t, hs, ht.trans (appendSamples_none (Nat.le_of_eq List.length_replicate.symm))⟩
  · exact ⟨fetchingAt 0x4018 0, _, rfl, rfl⟩
  · exact ⟨fetchingAt 0x4018 0, _, _, rfl⟩

/-- Of the read class: addresses with a handler and without one, at the ends of the hole. -/
theorem witness_LoadsRun_AddSubtractRun_LogicRuns_ComparesRun (s : State) :
    (regionOf (effectiveAddress (.abs 0x4017) s) ≠ .unmapped ∧ regionOf (effectiveAddress (.abs 0x6000) s) ≠ .unmapped) ∧
    regionOf (effectiveAddress (.abs 0x4018) s) = .unmapped ∧ regionOf (effectiveAddress (.abs 0x5FFF) s) = .unmapped :=
  ⟨⟨(by decide : regionOf 0x4017 ≠ .unmapped), (by decide : regionOf 0x6000 ≠ .unmapped)⟩, rfl, rfl⟩

/-- Of the write class: work RAM and SRAM at the ends of their ranges, a device that takes the write, a write that faults. -/
theorem witness_StoresRun :
    (regionOf (effectiveAddress (.abs 0x0000) console) = .workRam ∧ regionOf (effectiveAddress (.abs 0x1FFF) console) = .workRam) ∧
    (regionOf (effectiveAddress (.abs 0x6000) console) = .sram ∧ regionOf (effectiveAddress (.abs 0x7FFF) console) = .sram) ∧
    (∃ t, memWrite (effectiveAddress (.abs 0x2000) console) console.cpu.a console = .ok () t) ∧
    ∃ f, memWrite (effectiveAddress (.abs 0x8000) console) console.cpu.a console = .stop f :=
  ⟨⟨rfl, rfl⟩, ⟨rfl, rfl⟩, ⟨_, rfl⟩, ⟨_, rfl⟩⟩

/-- Of the read-modify-write class: the same, with the read before the write, and an address where the read faults. -/
theorem witness_MemoryIncrementsRun_ShiftsRun (r : Cpu → Byte → Byte) (k : Cpu → Byte → Bool) :
    (regionOf (effectiveAddress (.abs 0x0000) console) = .workRam ∧ regionOf (effectiveAddress (.abs 0x7FFF) console) = .sram) ∧
    (∃ v t u, memRead (effectiveAddress (.abs 0x2004) console) console = .ok v t ∧
      memWrite (effectiveAddress (.abs 0x2004) console) (r console.cpu v)
        (t.withCpu { console.cpu with c := k console.cpu v }) = .ok () u) ∧
    (∃ v t f, memRead (effectiveAddress (.abs 0x8000) console) console = .ok v t ∧
      memWrite (effectiveAddress (.abs 0x8000) console) (r console.cpu v)
        (t.withCpu { console.cpu with c := k console.cpu v }) = .stop f) ∧
    regionOf (effectiveAddress (.abs 0x5FFF) console) = .unmapped :=
  ⟨⟨rfl, rfl⟩, ⟨_, _, _, rfl, rfl⟩, ⟨_, _, _, rfl, rfl⟩, rfl⟩

theorem witness_BranchesRun :
    (!cpu0.c) = true ∧ cpu0.c = false ∧ (!cpu0.z) = true ∧ cpu0.z = false ∧ (!cpu0.n) = true ∧ cpu0.n = false ∧
    (!cpu0.v) = true ∧ cpu0.v = false ∧ (cpu0.setStatus 0xFF).c = true ∧ (cpu0.setStatus 0xFF).z = true ∧
    (cpu0.setStatus 0xFF).n = true ∧ (cpu0.setStatus 0xFF).v = true := by decide

/-- A pointer in memory; one without a handler; one whose second byte alone has none. -/
theorem witness_JumpsRun :
    ((0x0200 : Word) = ((0x02FF &&& 0xFF00) ||| ((0x02FF + 1) &&& 0x00FF)) ∧
      regionOf 0x02FF ≠ .unmapped ∧ regionOf 0x0200 ≠ .unmapped) ∧
    ((0x5F00 : Word) = ((0x5FFF &&& 0xFF00) ||| ((0x5FFF + 1) &&& 0x00FF)) ∧ regionOf 0x5FFF = .unmapped) ∧
    ((0x4018 : Word) = ((0x4017 &&& 0xFF00) ||| ((0x4017 + 1) &&& 0x00FF)) ∧
      regionOf 0x4017 ≠ .unmapped ∧ regionOf 0x4018 = .unmapped) := by decide

theorem witness_BrkTakesInterrupt :
    (console.latch = .none ∧ ∃ t, exec .brk console = .next t) ∧
    (({ console with latch := .irqBrk }).latch = .irqBrk ∧ ∃ t, exec .brk { console with latch := .irqBrk } = .next t) :=
  ⟨⟨rfl, _, rfl⟩, rfl, _, rfl⟩

theorem witness_SignedAndUnsignedOverflow :
    (∃ t, exec (.adcImm 0x01) (onCpu { cpu0 with a := 0x7F }) = .next t) ∧
    ∃ t, exec (.sbcImm 0x01) (onCpu { cpu0 with a := 0x80, c := true }) = .next t := ⟨⟨_, rfl⟩, _, rfl⟩

theorem witness_StackRoundTrips :
    (∃ t u, exec .pha console = .next t ∧ exec .pla t = .next u) ∧ (∃ t u, exec .php console = .next t ∧ exec .plp t = .next u) ∧
    (∃ t u, exec (.jsrAbs 0x9000) console = .next t ∧ exec .rts t = .next u) ∧
    ∃ u, exec .rti (takeInterrupt 0xFFFE 7 console) = .next u :=
  ⟨⟨_, _, rfl, rfl⟩, ⟨_, _, rfl, rfl⟩, ⟨_, _, rfl, rfl⟩, _, rfl⟩

theorem witness_CpuFrame :
    (∃ t, exec .nop console = .next t) ∧ (∀ f, mnemonicOf .nop ∉ flagWriters f) ∧ mnemonicOf .nop ∉ writersOfA ∧
    ¬ onAccumulator .nop ∧ mnemonicOf .nop ∉ writersOfX ∧ mnemonicOf .nop ∉ writersOfY ∧ mnemonicOf .nop ∉ writersOfS ∧
    mnemonicOf .nop ∉ writersOfPc ∧ Instr.nop ≠ .brk := by
  refine ⟨⟨_, rfl⟩, fun f => by cases f <;> decide, by decide, ?_, by decide, by decide, by decide, by decide, by decide⟩
  rintro (h | h | h | h) <;> cases h

theorem witness_NonStoringFrame :
    destinationOf (.ldaAbs 0x2002) = none ∧ ¬ pushes (.ldaAbs 0x2002) ∧ Instr.ldaAbs 0x2002 ≠ .brk ∧
    ∃ t, exec (.ldaAbs 0x2002) console = .next t :=
  ⟨rfl, by unfold pushes; decide, by decide, goesOn_next (by decide)⟩

theorem witness_StoringFrame :
    (destinationOf (.staAbs 0x0300) = some (.abs 0x0300) ∧ (∃ t, exec (.staAbs 0x0300) console = .next t) ∧
      (regionOf (effectiveAddress (.abs 0x0300) console) ≠ .prg) ∧
      ¬ samePlace (effectiveAddress (.abs 0x0300) console) 0x0301) ∧
    (pushes (.jsrAbs 0x9000) ∧ (∃ t, exec (.jsrAbs 0x9000) console = .next t) ∧
      ¬ samePlace (stackAddress console.cpu.s) 0x01FE ∧ ¬ samePlace (stackAddress (console.cpu.s - 1)) 0x01FE) := by
  refine ⟨⟨rfl, ⟨_, rfl⟩, (by decide : regionOf 0x0300 ≠ .prg), ?_⟩, .inr (.inr rfl), ⟨_, rfl⟩, ?_, ?_⟩
  · show ¬ samePlace 0x0300 0x0301; unfold samePlace; decide
  · show ¬ samePlace 0x01FD 0x01FE; unfold samePlace; decide
  · show ¬ samePlace 0x01FC 0x01FE; unfold samePlace; decide

/-- The ends of the ranges of the CPU's memory map, and a window that names a page. -/
theorem witness_BusReads_BusWrites :
    (0x1FFF : Word).toNat ≤ 0x1FFF ∧ 0x2000 ≤ (0x2000 : Word).toNat ∧ (0x3FFF : Word).toNat ≤ 0x3FFF ∧
    0x4000 ≤ (0x4000 : Word).toNat ∧ (0x4017 : Word).toNat ≤ 0x4017 ∧ 0x4018 ≤ (0x4018 : Word).toNat ∧
    (0x5FFF : Word).toNat ≤ 0x5FFF ∧ 0x6000 ≤ (0x6000 : Word).toNat ∧ (0x7FFF : Word).toNat ≤ 0x7FFF ∧
    0x8000 ≤ (0x8000 : Word).toNat ∧ console.win.prg[((0xFFFF : Word).toNat - 0x8000) / 0x2000]? = some 3 ∧
    console.cart.prg[3]? = some [] ∧
    ((0x3FFC : Word).toNat % 8 = 4 ∧ (0x3FFE : Word).toNat % 8 ≠ 2 ∧ (0x3FFE : Word).toNat % 8 ≠ 4 ∧
      (0x3FFE : Word).toNat % 8 ≠ 7) ∧ (0x4014 : Word).toNat ≤ 0x4014 := by decide +kernel

theorem witness_ReadAfterWrite :
    (regionOf 0x1FFF = .workRam ∧ samePlace 0x1FFF 0x07FF ∧ ¬ samePlace 0x1FFF 0x1FFE) ∧
    (regionOf 0x6000 = .sram ∧ samePlace 0x6000 0x6000 ∧ ¬ samePlace 0x6000 0x7FFF) ∧
    ((0x0000 : Word).toNat ≤ 0x1FFF ∧ (0x1800 : Word).toNat ≤ 0x1FFF ∧
      (0x0000 : Word).toNat % 0x800 = (0x1800 : Word).toNat % 0x800) := by unfold samePlace; decide

theorem witness_RomNeverChanges : (∃ t, step console = .next t) ∧ (banked .mapper0 4 8).cart.chrIsRam = false :=
  ⟨witness_step, rfl⟩

theorem witness_InterruptCheck :
    console.latch = .none ∧
    (let s := { onCpu { cpu0 with i := true } with latch := .irqBrk }; s.latch = .irqBrk ∧ s.cpu.i = true ∧ s.cpu.brk = false) ∧
    (let s := { onCpu cpu0 with latch := .irqBrk }; s.latch = .irqBrk ∧ s.cpu.i = false ∧ s.cpu.brk = false) ∧
    (let s := { onCpu { cpu0 with brk := true } with latch := .irqBrk }; s.latch = .irqBrk ∧ s.cpu.brk = true) ∧
    ({ console with latch := .nmi }).latch = .nmi ∧ ({ console with latch := .reset }).latch = .reset :=
  ⟨rfl, ⟨rfl, rfl, rfl⟩, ⟨rfl, rfl, rfl⟩, ⟨rfl, rfl⟩, rfl, rfl⟩

theorem witness_BetweenStepsInvariantsKept :
    (∃ t, step console = .next t) ∧ DmcInv console ∧ LatchInv console ∧ ClockInv console ∧ BatchInv console :=
  ⟨witness_step, ⟨by decide, by decide⟩, ⟨.inl rfl, rfl⟩, ⟨rfl, .inl rfl⟩, Nat.zero_lt_succ _⟩

theorem witness_PpuStatusRead :
    (0x2000 ≤ (0x2002 : Word).toNat ∧ (0x2002 : Word).toNat ≤ 0x3FFF ∧ (0x2002 : Word).toNat % 8 = 2) ∧
    (0x2000 ≤ (0x3FFA : Word).toNat ∧ (0x3FFA : Word).toNat ≤ 0x3FFF ∧ (0x3FFA : Word).toNat % 8 = 2) := by decide

theorem witness_PpuRegisterWrites :
    (0x2000 ≤ (0x2000 : Word).toNat ∧ (0x2000 : Word).toNat ≤ 0x3FFF ∧ (0x2000 : Word).toNat % 8 = 0) ∧
    (0x3FF9 : Word).toNat % 8 = 1 ∧ (0x3FFA : Word).toNat % 8 = 2 ∧ (0x3FFB : Word).toNat % 8 = 3 ∧
    (0x3FFC : Word).toNat % 8 = 4 ∧ (0x3FFD : Word).toNat % 8 = 5 ∧ (0x3FFE : Word).toNat % 8 = 6 ∧
    State.reset.ppu.w = false ∧ (onPpu { Ppu.powerUp with w := true }).ppu.w = true := by decide

/-- Every mapper; v at the ends of the three ranges of the PPU's memory, with CHR RAM and with CHR ROM. -/
theorem witness_PpuDataPort :
    ((banked .mapper0 4 8).mapper = .mapper0 ∧ (banked mmc1 4 8).mapper = mmc1 ∧ (banked (.mapper2 0) 4 8).mapper = .mapper2 0 ∧
      (banked (.mapper3 0) 4 8).mapper = .mapper3 0 ∧
      (banked (.mapper4 ⟨0, Vector.replicate 8 0, true⟩) 4 8).mapper = .mapper4 ⟨0, Vector.replicate 8 0, true⟩) ∧
    (0x2000 ≤ (0x3FFF : Word).toNat ∧ (0x3FFF : Word).toNat ≤ 0x3FFF ∧ (0x3FFF : Word).toNat % 8 = 7) ∧
    (0x1FFF : Nat) = (0x5FFF : BitVec 15).toNat % 0x4000 ∧ (0x2000 : Nat) = (0x2000 : BitVec 15).toNat % 0x4000 ∧
    (0x3EFF : Nat) = (0x3EFF : BitVec 15).toNat % 0x4000 ∧ (0x3F00 : Nat) = (0x7F00 : BitVec 15).toNat % 0x4000 ∧
    console.cart.chrIsRam = true ∧ (banked .mapper0 4 8).cart.chrIsRam = false ∧
    console.win.chr[0x1FFF / 0x400]? = some 7 ∧ console.cart.chr[7]? = some [] := by decide +kernel

theorem witness_TickAdvances :
    (-1 ≤ State.reset.ppu.scanline ∧ State.reset.ppu.scanline ≤ 260 ∧ State.reset.ppu.pixel ≤ 340) ∧
    (let s := onPpu { Ppu.powerUp with scanline := 260, pixel := 340 };
     -1 ≤ s.ppu.scanline ∧ s.ppu.scanline ≤ 260 ∧ s.ppu.pixel ≤ 340 ∧
     ¬ (0 ≤ s.ppu.scanline ∧ s.ppu.scanline ≤ 239 ∧ s.ppu.pixel ≤ 255) ∧ ¬ (s.ppu.scanline = 241 ∧ s.ppu.pixel = 0) ∧
     ¬ (s.ppu.scanline = -1 ∧ s.ppu.pixel = 0)) := by decide

theorem witness_VBlankEvents :
    (let s := onPpu { Ppu.powerUp with scanline := 241 }; s.ppu.scanline = 241 ∧ s.ppu.pixel = 0) ∧
    State.reset.ppu.scanline = -1 ∧ State.reset.ppu.pixel = 0 := by decide

/-- A tick at the first pixel, with and without rendering, one at the last, and an address for each clause of the increments. -/
theorem witness_ScrollRules :
    (coarseX 0x001F = 31 ∧ coarseX 0x001E ≠ 31) ∧
    (fineY 0x6000 ≠ 7 ∧ (fineY 0x73A0 = 7 ∧ coarseY 0x73A0 = 29) ∧ fineY 0x73E0 = 7 ∧ coarseY 0x73E0 ≠ 29) ∧
    (let s := onPpu { Ppu.powerUp with scanline := 0, mask := 0x08, t := 0x616F }
     s.ppu.scanline = (0 : Nat) ∧ s.ppu.pixel = 0 ∧ (s.ppu.mask.getLsbD 3 = true ∨ s.ppu.mask.getLsbD 4 = true) ∧
     RendersFrom s.ppu 0 0 0x616F) ∧
    (let s := onPpu { Ppu.powerUp with scanline := 239, pixel := 255, mask := 0x08, x := 0 }
     s.ppu.scanline = (239 : Nat) ∧ s.ppu.pixel = 255 ∧ (s.ppu.x.toNat + 255) % 8 = 7 ∧ RendersFrom s.ppu 239 255 0) ∧
    (let s := onPpu { Ppu.powerUp with scanline := 0 }
     s.ppu.scanline = (0 : Nat) ∧ s.ppu.mask.getLsbD 3 = false ∧ s.ppu.mask.getLsbD 4 = false ∧ RendersFrom s.ppu 0 0 0) := by
  unfold RendersFrom; decide

/-- Visible pixels at the ends of the line, with an opaque sprite and an opaque or a transparent background. -/
theorem witness_VisiblePixel :
    (let s := onPpu { Ppu.powerUp with scanline := 239, pixel := 255, mask := 0x18,
                                       spr := [(239, [(255, some ⟨0x11, true, true⟩)])] }
     s.ppu.scanline = (239 : Nat) ∧ s.ppu.pixel = 255 ∧ s.ppu.mask.getLsbD 4 = true ∧
     RendersFrom s.ppu 239 255 0 ∧ Grid.get none s.ppu.spr 239 255 = some ⟨0x11, true, true⟩) ∧
    (let s := onPpu { Ppu.powerUp with scanline := 0, mask := 0x08, t := 0x616F }
     s.ppu.scanline = (0 : Nat) ∧ s.ppu.pixel = 0 ∧ RendersFrom s.ppu 0 0 0x616F) ∧
    (let s := onPpu { Ppu.powerUp with scanline := 0, pixel := 1 }
     s.ppu.scanline = (0 : Nat) ∧ s.ppu.pixel = 1 ∧ s.ppu.mask.getLsbD 3 = false ∧ s.ppu.mask.getLsbD 4 = false ∧
     backgroundPixel s 1 = (0, 0)) ∧
    (backgroundPixel
      { banked .mapper0 4 8 with
        ppu := { Ppu.powerUp with scanline := 0, pixel := 8, mask := 0x08 }
        cart := { Cartridge.absent with prg := [[], [], [], []], chr := [(0, 0xFF)] :: List.replicate 7 [] } } 8).1 ≠ 0 := by
  unfold RendersFrom; decide +kernel

/-- A console with one sprite whose tile is opaque. -/
theorem witness_SpriteBufferSound :
    Grid.get none (computeSprites { banked .mapper0 4 8 with
      ppu := { Ppu.powerUp with oam := [(0, 50), (2, 0x21), (3, 100)] ++ Table.ofValues 0 4 (List.replicate 252 0xFF) }
      cart := { Cartridge.absent with chr := [(0, 0x80)] :: List.replicate 7 [] } }) 51 100 = some ⟨0x15, true, true⟩ := by
  decide +kernel

theorem witness_PpuInvariantKept : PpuInv console ∧ ∃ t, step console = .next t :=
  ⟨⟨by decide, by decide, rfl⟩, witness_step⟩

/-- Counts before each event of both modes, inhibited and not, and one before none. -/
theorem witness_FrameSequencerTicks :
    3728 = 3727 + 1 ∧ 7456 = 7455 + 1 ∧ 11185 = 11184 + 1 ∧
    (let f := { FrameSeq.powerUp with fcount := 14913 }; f.mode5 = false ∧ 14914 = f.fcount + 1 ∧ f.irqInhibit = false) ∧
    (let f := { FrameSeq.powerUp with fcount := 14913, irqInhibit := true }; f.mode5 = false ∧ f.irqInhibit = true) ∧
    (let f := { FrameSeq.powerUp with fcount := 18639, mode5 := true }; f.mode5 = true ∧ 18640 = f.fcount + 1) ∧
    (let f := { FrameSeq.powerUp with fcount := 14913, mode5 := true }
     let n := f.fcount + 1
     n ≠ 3728 ∧ n ≠ 7456 ∧ n ≠ 11185 ∧ (f.mode5 = true ∨ n ≠ 14914) ∧ (f.mode5 = false ∨ n ≠ 18640)) := by decide

theorem witness_SoundUnits :
    Pulse.powerUp.length = 0 ∧ Noise.powerUp.length = 0 ∧ ({ Envelope.powerUp with start := true, vol := 15 }).start = true ∧
    (15 : Nat) ≤ 15 ∧ (0x4000 : BitVec 15) ≠ 0 ∧ Envelope.powerUp.start = false ∧ Envelope.powerUp.div = 0 ∧
    ({ Envelope.powerUp with div := 15 }).div ≠ 0 ∧ Pulse.powerUp.timer = 0 ∧ ({ Pulse.powerUp with timer := 0x7FF }).timer ≠ 0 ∧
    Triangle.powerUp.timer = 0 ∧ ({ Triangle.powerUp with timer := 0x7FF }).timer ≠ 0 ∧ Noise.powerUp.timer = 0 ∧
    ({ Noise.powerUp with timer := 2033 }).timer ≠ 0 ∧ Dmc.powerUp.timer = 0 ∧ ({ Dmc.powerUp with timer := 213 }).timer ≠ 0 ∧
    Dmc.powerUp.silence = true ∧ Dmc.powerUp.bitsLeft ≠ 1 ∧
    (let d := { Dmc.powerUp with silence := false, shift := 1, bitsLeft := 1, bufferFull := true }
     d.silence = false ∧ d.shift.getLsbD 0 = true ∧ d.bitsLeft = 1 ∧ d.bufferFull = true) ∧
    Dmc.powerUp.shift.getLsbD 0 = false ∧ Dmc.powerUp.bufferFull = false ∧
    Triangle.powerUp.seq.toNat ≤ 15 ∧ 16 ≤ ({ Triangle.powerUp with seq := 16 }).seq.toNat := by decide

theorem witness_ApuEnablesAndStatus :
    (0x07 : Byte).getLsbD 4 = false ∧ (0x10 : Byte).getLsbD 4 = true ∧ Dmc.powerUp.bytesLeft = 0 ∧
    ({ Dmc.powerUp with bytesLeft := 1 }).bytesLeft ≠ 0 ∧
    (∃ t u, memWrite 0x4015 0x07 State.reset = .ok () t ∧ memWrite 0x4015 0x80 t = .ok () u) :=
  ⟨by decide, by decide, by decide, by decide, _, _, memWrite_io (r := 0x15) rfl (by decide) _ _,
   memWrite_io (r := 0x15) rfl (by decide) _ _⟩

theorem witness_DmcReaderReads :
    (State.reset.apu.dmc.bufferFull = true ∨ State.reset.apu.dmc.bytesLeft = 0) ∧
    (let d := { Dmc.powerUp with curAddr := 0xFFFF, bytesLeft := 1 }
     d.bufferFull = false ∧ d.bytesLeft ≠ 0 ∧ regionOf d.curAddr ≠ .unmapped) := by decide

theorem witness_ApuInvariantKept : ApuInv console ∧ ∃ t, step console = .next t :=
  ⟨⟨by decide, by decide, by decide, by decide⟩, witness_step⟩

theorem witness_TicksNeverFault : DmcInv console ∧ ∃ t, step console = .next t := ⟨⟨by decide, by decide⟩, witness_step⟩

theorem witness_AudioBatches : ([] : List Rat).length < Config.audioBatch ∧ BatchInv console :=
  ⟨Nat.zero_lt_succ _, Nat.zero_lt_succ _⟩

theorem witness_OamDmaCopies :
    ((0x3F : Byte).toNat < 0x40 ∨ 0x60 ≤ (0x3F : Byte).toNat) ∧ ((0xFF : Byte).toNat < 0x40 ∨ 0x60 ≤ (0xFF : Byte).toNat) ∧
    ((0x00 : Byte).toNat < 0x20 ∨ 0x60 ≤ (0x00 : Byte).toNat) ∧ ((0x1F : Byte).toNat < 0x20 ∨ 0x60 ≤ (0x1F : Byte).toNat) ∧
    ((0x60 : Byte).toNat < 0x20 ∨ 0x60 ≤ (0x60 : Byte).toNat) ∧ (0x41 ≤ (0x41 : Byte).toNat ∧ (0x41 : Byte).toNat < 0x60) ∧
    (0x41 ≤ (0x5F : Byte).toNat ∧ (0x5F : Byte).toNat < 0x60) := by decide

theorem witness_ControllerReads : State.reset.pads.strobe = false ∧
    ({ State.reset with pads := { Pads.powerUp with strobe := true } }).pads.strobe = true := by decide

/-- For each mapper a write at an end of the PRG range: registers whose windows fit the page counts, and registers one of whose
windows does not, at the bounds of each clause. -/
theorem witness_MapperRegisterWrites :
    (0x8000 ≤ (0x8000 : Word).toNat ∧ 0x8000 ≤ (0xFFFF : Word).toNat) ∧ (banked .mapper0 4 8).mapper = .mapper0 ∧
    (let s := banked (.mapper2 0) 16 8
     2 ≤ s.cart.prgPages ∧ 8 ≤ s.cart.chrPages ∧ 2 * (7 : Byte).toNat + 1 < s.cart.prgPages ∧
     s.cart.prgPages ≤ 2 * (8 : Byte).toNat + 1) ∧
    (let s := banked (.mapper3 0) 2 32
     2 ≤ s.cart.prgPages ∧ 8 * (3 : Byte).toNat + 7 < s.cart.chrPages ∧ s.cart.chrPages ≤ 8 * (4 : Byte).toNat + 7) ∧
    (((Mapper.mapper2 7).windows 16).overflow 16 8 = none ∧ ((Mapper.mapper2 8).windows 16).overflow 16 8 ≠ none) ∧
    (((Mapper.mapper3 3).windows 2).overflow 2 32 = none ∧ ((Mapper.mapper3 4).windows 2).overflow 2 32 ≠ none) ∧
    (let r : Mmc1 := { shift := 0x1F, count := 4, control := 0, chr0 := 0, chr1 := 0, prg := 7 }
     (0x80 : Byte).getLsbD 7 = true ∧ (1 : Byte).getLsbD 7 = false ∧
     ((Mapper.mapper1 { r with prg := 7 }).windows 16).overflow 16 16 = none ∧
     ((Mapper.mapper1 { r with prg := 0x1F }).windows 16).overflow 16 16 ≠ none ∧
     ((0x1F : BitVec 5).toNat = r.shift.toNat / 2 + 16 * ((1 : Byte).toNat % 2)) ∧ r.count = 4 ∧
     ({ r with count := 0 } : Mmc1).count = 0 ∧ ({ r with count := 3 } : Mmc1).count ≠ 4) ∧
    (let r : Mmc3 := ⟨0, Vector.replicate 8 0, true⟩
     ((Mapper.mapper4 { r with select := 0x46 }).windows 32).overflow 32 256 = none ∧
     ((Mapper.mapper4 { r with r := r.r.set 6 31 }).windows 32).overflow 32 256 = none ∧
     ((Mapper.mapper4 { r with r := r.r.set 6 32 }).windows 32).overflow 32 256 ≠ none) := by decide +kernel

theorem witness_WindowTables :
    (0 : Nat) = (0x03 : BitVec 5).toNat / 4 % 4 ∧ (1 : Nat) = (0x04 : BitVec 5).toNat / 4 % 4 ∧
    (2 : Nat) = (0x18 : BitVec 5).toNat / 4 % 4 ∧ (3 : Nat) = (0x0C : BitVec 5).toNat / 4 % 4 ∧
    (15 : Nat) = (0x1F : BitVec 5).toNat % 16 ∧ (0x0F : BitVec 5).toNat < 16 ∧ 16 ≤ (0x10 : BitVec 5).toNat := by decide

theorem witness_WindowsInvariantKept : WindowsInv console ∧ ∃ t, step console = .next t :=
  ⟨fun _ => ⟨by decide +kernel, Windows.overflow_eq_none.1 (by decide +kernel)⟩, witness_step⟩

theorem witness_MemoryInvariantKept : MemoryInv console ∧ ∃ t, step console = .next t :=
  ⟨⟨by unfold Memory.Sized Below; decide +kernel, by unfold Memory.Sized Below; decide +kernel,
    by unfold Memory.Sized Below; decide +kernel, by unfold Memory.Sized Below; decide +kernel,
    by unfold Memory.Sized Below; decide +kernel, by unfold Memory.Sized Below; decide +kernel,
    by unfold Below; decide +kernel, by unfold Below; decide +kernel,
    by unfold Grid.Screen Below; decide +kernel, by unfold Grid.Screen Below; decide +kernel⟩, witness_step⟩

/-- A 16,400-byte image of one PRG bank and no CHR: header byte 4 is 1, byte 6 is `b6`. -/
def image (b6 : Byte) : List Byte := [0x4E, 0x45, 0x53, 0x1A, 1, 0, b6, 0, 0, 0, 0, 0, 0, 0, 0, 0] ++ List.replicate 16384 0

theorem image_length (b6 : Byte) : (image b6).length = 16400 := by
  unfold image; simp only [List.length_append, List.length_replicate, List.length_cons, List.length_nil]

/-- A mapper of 0 to 4 at power-up has windows in two PRG and eight CHR pages. -/
theorem powerUp_fits : ∀ k < 5, ∀ bit, ((Mapper.powerUp k bit).map fun m => (m.windows 2).overflow 2 8) = some none := by
  decide +kernel

theorem image_loads (b6 : Byte) (h : b6.toNat < 0x50) : ∃ s, loadCartridge InitMem.unlisted (image b6) = .ok s := by
  have hn : headerPrgPages (image b6) = 2 := rfl
  have hc : headerChrPages (image b6) = 0 := rfl
  have hk : headerMapper (image b6) < 5 := by
    have : headerMapper (image b6) = ((0#8 &&& 0xF0#8) ||| (b6 >>> 4)).toNat := rfl
    rw [this, BitVec.zero_and, BitVec.zero_or, BitVec.toNat_ushiftRight, Nat.shiftRight_eq_div_pow]
    omega
  have hp : (imageCartridge InitMem.unlisted (image b6)).prgPages = 2 := by
    simp [imageCartridge, imagePages, Cartridge.prgPages, hn]
  have hq : (imageCartridge InitMem.unlisted (image b6)).chrPages = 8 := by
    simp [imageCartridge, Cartridge.chrPages, hc, InitMem.unlisted]
  have fits := powerUp_fits _ hk (imageCartridge InitMem.unlisted (image b6)).hdrMirroring
  unfold loadCartridge
  rw [if_neg (by decide +revert), image_length, if_neg (by decide), if_neg (by decide), hn, hc, if_neg (by decide)]
  dsimp only
  rw [hp, hq]
  generalize Mapper.powerUp _ _ = o at fits
  cases o with
  | none => cases fits
  | some m =>
    have : (m.windows 2).overflow 2 8 = none := by simpa using fits
    dsimp only; rw [this]; exact ⟨_, rfl⟩

/-- Images for each clause of loading: no signature, a header alone, too short, a wrong length, a mapper above 4, no PRG page,
and images of every mapper that load. -/
theorem witness_LoadedConsole :
    ([0x4E, 0x45] : List Byte).take 4 ≠ [0x4E, 0x45, 0x53, 0x1A] ∧
    (([0x4E, 0x45, 0x53, 0x1A] ++ List.replicate 12 7 : List Byte).take 4 = [0x4E, 0x45, 0x53, 0x1A] ∧
      ([0x4E, 0x45, 0x53, 0x1A] ++ List.replicate 12 7 : List Byte).length = 16) ∧
    ([0x4E, 0x45, 0x53, 0x1A] : List Byte).length < 16 ∧
    (16 < ([0x4E, 0x45, 0x53, 0x1A, 1] ++ List.replicate 12 0 : List Byte).length ∧
      ([0x4E, 0x45, 0x53, 0x1A, 1] ++ List.replicate 12 0 : List Byte).length ≠ 16 + 1 * 2 * 8192 + 0 * 8 * 1024) ∧
    ((image 0x50).take 4 = [0x4E, 0x45, 0x53, 0x1A] ∧ (image 0x50).length = 16 + 1 * 2 * 8192 + 0 * 8 * 1024 ∧
      4 < ((image 0x50).getD 7 0).toNat / 16 * 16 + ((image 0x50).getD 6 0).toNat / 16) ∧
    (let bytes : List Byte := [0x4E, 0x45, 0x53, 0x1A, 0, 1, 0, 0, 0, 0, 0, 0, 0, 0, 0, 0] ++ List.replicate 8192 0
     bytes.take 4 = [0x4E, 0x45, 0x53, 0x1A] ∧ bytes.length = 16 + (bytes.getD 4 0).toNat * 2 * 8192 +
       (bytes.getD 5 0).toNat * 8 * 1024 ∧ (bytes.getD 4 0).toNat * 2 = 0 ∧
       (bytes.getD 7 0).toNat / 16 * 16 + (bytes.getD 6 0).toNat / 16 ≤ 4) ∧
    ∀ b6 : Byte, b6.toNat < 0x50 → ∃ s, loadCartridge InitMem.unlisted (image b6) = .ok s := by
  refine ⟨by decide, ⟨by decide, by decide⟩, by decide, ⟨by decide, by decide⟩, ⟨rfl, image_length _, by decide⟩,
    ⟨rfl, ?_, rfl, by decide⟩, image_loads⟩
  simp only [List.length_append, List.length_replicate]; rfl

end Sys2Proof.Tests
end

section
/-! SUPPORT. Register writes of the mappers (R329 to R337): what each write does to the registers, when the windows of mappers
2 and 3 name pages that exist, and O55 from them. -/

namespace Sys2Proof.Machine

/-! ## From the bus to the mapper -/

theorem memWrite_prg {a : Word} (ha : 0x8000 ≤ a.toNat) (v : Byte) (s : State) : memWrite a v s = mapperWrite a v s := by
  rw [memWrite, regionOf_prg ha]

theorem memWrite_noRegister {s : State} {a : Word} {v : Byte} (ha : 0x8000 ≤ a.toNat)
    (h : s.mapper.write a v = .noRegister) : memWrite a v s = raise (.prgRomWrite a v) s := by
  rw [memWrite_prg ha, mapperWrite, h]

theorem memWrite_keepWindows {s : State} {a : Word} {v : Byte} {m : Mapper} (ha : 0x8000 ≤ a.toNat)
    (h : s.mapper.write a v = .keepWindows m) : memWrite a v s = .ok () { s with mapper := m } := by
  rw [memWrite_prg ha, mapperWrite, h]

/-- A write whose windows do not fit is `BANK_OVERFLOW`, whichever window its record names (log entry 14). -/
theorem MapperTakes.overflows {s : State} {a : Word} {v : Byte} {m : Mapper} (h : MapperTakes s a v m)
    (hf : ¬ (m.windows s.cart.prgPages).Fit s.cart.prgPages s.cart.chrPages) :
    ∃ k, memWrite a v s =
      .stop (.fatal (.bankOverflow a v k) { s with mapper := m, fault := some (.bankOverflow a v k) }) :=
  let ⟨k, _, hk⟩ := h.2 hf
  ⟨k, hk⟩

/-- Address bits 14:13, by which mappers 1 and 4 choose a register (R332, R337), number the 8 KiB block of the address. -/
theorem extractLsb_14_13_toNat (a : Word) : (a.extractLsb 14 13).toNat = a.toNat / 0x2000 % 4 := by
  rw [BitVec.extractLsb_toNat, Nat.shiftRight_eq_div_pow]

theorem getLsbD_zero_eq_decide {w : Nat} (a : BitVec w) : a.getLsbD 0 = decide (a.toNat % 2 = 1) := Nat.testBit_zero _

/-! ## Mappers 2 and 3 (R335, R336) -/

theorem memWrite_mapper2 {s : State} {a : Word} {bank : Byte} (ha : 0x8000 ≤ a.toNat) (h : s.mapper = .mapper2 bank)
    (v : Byte) : MapperTakes s a v (.mapper2 v) :=
  memWrite_takes ha (by rw [h]; rfl)

theorem memWrite_mapper3 {s : State} {a : Word} {bank : Byte} (ha : 0x8000 ≤ a.toNat) (h : s.mapper = .mapper3 bank)
    (v : Byte) : MapperTakes s a v (.mapper3 v) :=
  memWrite_takes ha (by rw [h]; rfl)

theorem chrBank8_getElem (bank i : Nat) (h : i < 8) : (chrBank8 bank)[i] = 8 * bank + i := by
  match i, h with
  | 0, _ | 1, _ | 2, _ | 3, _ | 4, _ | 5, _ | 6, _ | 7, _ => rfl

/-- Four PRG windows are below `n` where each of them is. -/
theorem prgWindows_getElem_lt {p0 p1 p2 p3 n : Nat} (h0 : p0 < n) (h1 : p1 < n) (h2 : p2 < n) (h3 : p3 < n) (i : Nat)
    (h : i < 4) : #v[p0, p1, p2, p3][i] < n :=
  match i, h with
  | 0, _ => h0
  | 1, _ => h1
  | 2, _ => h2
  | 3, _ => h3

/-- With the fixed windows' pages present, mapper 2's windows fit where its bank's second page exists. -/
theorem mapper2_windows_fit {n c : Nat} {bank : Byte} (hn : 2 ≤ n) (hc : 8 ≤ c) (hb : 2 * bank.toNat + 1 < n) :
    ((Mapper.mapper2 bank).windows n).Fit n c := by
  refine ⟨prgWindows_getElem_lt (by omega) hb (by omega) (by omega), fun i hi => ?_⟩
  have := chrBank8_getElem 0 i hi
  simp only [Mapper.windows]; omega

theorem mapper2_windows_not_fit {n c : Nat} {bank : Byte} (hb : n ≤ 2 * bank.toNat + 1) :
    ¬ ((Mapper.mapper2 bank).windows n).Fit n c :=
  fun h => Nat.not_lt.2 hb (h.1 1 (by decide))

/-- With two PRG pages present, mapper 3's windows fit where its bank's last page exists. -/
theorem mapper3_windows_fit {n c : Nat} {bank : Byte} (hn : 2 ≤ n) (hb : 8 * bank.toNat + 7 < c) :
    ((Mapper.mapper3 bank).windows n).Fit n c := by
  refine ⟨prgWindows_getElem_lt (by omega) (by omega) (by omega) (by omega), fun i hi => ?_⟩
  have := chrBank8_getElem bank.toNat i hi
  simp only [Mapper.windows]; omega

theorem mapper3_windows_not_fit {n c : Nat} {bank : Byte} (hb : c ≤ 8 * bank.toNat + 7) :
    ¬ ((Mapper.mapper3 bank).windows n).Fit n c :=
  fun h => Nat.not_lt.2 hb (h.2 7 (by decide))

/-! ## Mapper 1 (R332) -/

/-- The shift register after bit 0 of `v` is shifted in, counted. -/
def Mmc1.shiftIn (r : Mmc1) (v : Byte) : Mmc1 :=
  { r with shift := BitVec.ofNat 5 (r.shift.toNat / 2 + 16 * (v.toNat % 2)), count := r.count + 1 }

/-- The register that the address chooses is loaded with `value`, and the shift register is cleared. -/
def Mmc1.load (r : Mmc1) (a : Word) (value : BitVec 5) : Mmc1 :=
  { r with
    shift := 0, count := 0
    control := if a.toNat < 0xA000 then value else r.control
    chr0 := if 0xA000 ≤ a.toNat ∧ a.toNat < 0xC000 then value else r.chr0
    chr1 := if 0xC000 ≤ a.toNat ∧ a.toNat < 0xE000 then value else r.chr1
    prg := if 0xE000 ≤ a.toNat then value else r.prg }

@[simp] theorem Mmc1.shiftIn_count (r : Mmc1) (v : Byte) : (r.shiftIn v).count = r.count + 1 := rfl

theorem Mmc1.shiftIn_shift_toNat (r : Mmc1) (v : Byte) :
    (r.shiftIn v).shift.toNat = r.shift.toNat / 2 + 16 * (v.toNat % 2) := by
  have := r.shift.isLt
  simp only [Mmc1.shiftIn, BitVec.toNat_ofNat]; omega

theorem Mmc1.eq_shiftIn_shift {r : Mmc1} {v : Byte} {value : BitVec 5}
    (h : value.toNat = r.shift.toNat / 2 + 16 * (v.toNat % 2)) : value = (r.shiftIn v).shift :=
  BitVec.eq_of_toNat_eq (by rw [h, Mmc1.shiftIn_shift_toNat])

/-- Mapper 1's shifted register is that of `Mmc1.shiftIn`. -/
theorem Mmc1.shifted_eq (r : Mmc1) (v : Byte) :
    BitVec.ofBool (v.getLsbD 0) ++ r.shift.extractLsb 4 1 = (r.shiftIn v).shift := by
  have hs := r.shift.isLt
  have hx : (r.shift.extractLsb 4 1).toNat = r.shift.toNat / 2 := by
    rw [BitVec.extractLsb_toNat, Nat.shiftRight_eq_div_pow]; omega
  have hb : (BitVec.ofBool (v.getLsbD 0)).toNat = v.toNat % 2 := by
    rw [getLsbD_zero_eq_decide, BitVec.toNat_ofBool]
    rcases Nat.mod_two_eq_zero_or_one v.toNat with h | h <;> rw [h] <;> rfl
  apply Mmc1.eq_shiftIn_shift
  rw [BitVec.toNat_append, hx, hb, Nat.shiftLeft_eq, Nat.mul_comm,
    ← Nat.two_pow_add_eq_or_of_lt (by omega), Nat.add_comm]

theorem Mmc1.write_abort {r : Mmc1} {a : Word} {v : Byte} (hv : v.getLsbD 7 = true) :
    r.write a v = .recompute (.mapper1 { r with shift := 0, count := 0, control := r.control ||| 0x0C }) := if_pos hv

theorem Mmc1.write_bit {r : Mmc1} {a : Word} {v : Byte} (hv : v.getLsbD 7 = false) (hc : r.count ≠ 4) :
    r.write a v = .keepWindows (.mapper1 (r.shiftIn v)) := by
  rw [Mmc1.write, if_neg (Bool.eq_false_iff.1 hv), Mmc1.shifted_eq]
  exact if_neg (by omega)

theorem Mmc1.write_fifth {r : Mmc1} {a : Word} {v : Byte} (ha : 0x8000 ≤ a.toNat) (hv : v.getLsbD 7 = false)
    (hc : r.count = 4) : r.write a v = .recompute (.mapper1 (r.load a (r.shiftIn v).shift)) := by
  have := a.isLt
  rw [Mmc1.write, if_neg (Bool.eq_false_iff.1 hv), Mmc1.shifted_eq]
  dsimp only
  rw [if_pos (by omega), extractLsb_14_13_toNat, Mmc1.load]
  obtain h | h | h | h : a.toNat / 0x2000 = 4 ∨ a.toNat / 0x2000 = 5 ∨ a.toNat / 0x2000 = 6 ∨ a.toNat / 0x2000 = 7 := by
    omega
  · rw [h, if_pos (by omega), if_neg (by omega), if_neg (by omega), if_neg (by omega)]; rfl
  · rw [h, if_neg (by omega), if_pos (by omega), if_neg (by omega), if_neg (by omega)]; rfl
  · rw [h, if_neg (by omega), if_neg (by omega), if_pos (by omega), if_neg (by omega)]; rfl
  · rw [h, if_neg (by omega), if_neg (by omega), if_neg (by omega), if_pos (by omega)]; rfl

section
variable {s : State} {a : Word} {v : Byte} {r : Mmc1}

theorem memWrite_mapper1_abort (ha : 0x8000 ≤ a.toNat) (hm : s.mapper = .mapper1 r) (hv : v.getLsbD 7 = true) :
    MapperTakes s a v (.mapper1 { r with shift := 0, count := 0, control := r.control ||| 0x0C }) :=
  memWrite_takes ha (by rw [hm]; exact Mmc1.write_abort hv)

theorem memWrite_mapper1_bit (ha : 0x8000 ≤ a.toNat) (hm : s.mapper = .mapper1 r) (hv : v.getLsbD 7 = false)
    (hc : r.count ≠ 4) : memWrite a v s = .ok () { s with mapper := .mapper1 (r.shiftIn v) } :=
  memWrite_keepWindows ha (by rw [hm]; exact Mmc1.write_bit hv hc)

theorem memWrite_mapper1_fifth {value : BitVec 5} (ha : 0x8000 ≤ a.toNat) (hm : s.mapper = .mapper1 r)
    (hv : v.getLsbD 7 = false) (hc : r.count = 4) (hx : value.toNat = r.shift.toNat / 2 + 16 * (v.toNat % 2)) :
    MapperTakes s a v (.mapper1 (r.load a value)) := by
  rw [Mmc1.eq_shiftIn_shift hx]
  exact memWrite_takes ha (by rw [hm]; exact Mmc1.write_fifth ha hv hc)

end

/-- Four bits shifted in from a count of 0 go on, one after the other, and stand in the shift register's upper four places, first
bit lowest (R332). -/
theorem memWrite_mapper1_four {s : State} {r : Mmc1} {a0 a1 a2 a3 : Word} {v0 v1 v2 v3 : Byte} (hm : s.mapper = .mapper1 r)
    (hc : r.count = 0) (h0 : 0x8000 ≤ a0.toNat) (h1 : 0x8000 ≤ a1.toNat) (h2 : 0x8000 ≤ a2.toNat) (h3 : 0x8000 ≤ a3.toNat)
    (b0 : v0.getLsbD 7 = false) (b1 : v1.getLsbD 7 = false) (b2 : v2.getLsbD 7 = false) (b3 : v3.getLsbD 7 = false) :
    ∃ s1 s2 s3 shift, memWrite a0 v0 s = .ok () s1 ∧ memWrite a1 v1 s1 = .ok () s2 ∧ memWrite a2 v2 s2 = .ok () s3 ∧
      memWrite a3 v3 s3 = .ok () { s with mapper := .mapper1 { r with shift := shift, count := 4 } } ∧
      shift.toNat / 2 = v0.toNat % 2 + 2 * (v1.toNat % 2) + 4 * (v2.toNat % 2) + 8 * (v3.toNat % 2) := by
  have four : { r with shift := ((((r.shiftIn v0).shiftIn v1).shiftIn v2).shiftIn v3).shift, count := 4 } =
      (((r.shiftIn v0).shiftIn v1).shiftIn v2).shiftIn v3 := by
    simp only [Mmc1.shiftIn, hc]
  refine ⟨_, _, _, ((((r.shiftIn v0).shiftIn v1).shiftIn v2).shiftIn v3).shift,
    memWrite_mapper1_bit h0 hm b0 (by omega), memWrite_mapper1_bit h1 rfl b1 (by simp only [Mmc1.shiftIn_count]; omega),
    memWrite_mapper1_bit h2 rfl b2 (by simp only [Mmc1.shiftIn_count]; omega), ?_, ?_⟩
  · rw [four]; exact memWrite_mapper1_bit h3 rfl b3 (by simp only [Mmc1.shiftIn_count]; omega)
  · have := r.shift.isLt
    simp only [Mmc1.shiftIn_shift_toNat]; omega

/-! ## Mapper 4 (R337) -/

section
variable {r : Mmc3} {a : Word}

theorem Mmc3.write_select (ha : 0x8000 ≤ a.toNat) (hi : a.toNat < 0xA000) (h0 : a.toNat % 2 = 0) (v : Byte) :
    r.write a v = .recompute (.mapper4 { r with select := v }) := by
  have hb : a.toNat / 0x2000 % 4 = 0 := by omega
  rw [Mmc3.write, extractLsb_14_13_toNat, getLsbD_zero_eq_decide, hb, h0]; rfl

theorem Mmc3.write_bank (ha : 0x8000 ≤ a.toNat) (hi : a.toNat < 0xA000) (h0 : a.toNat % 2 = 1) (v : Byte) :
    r.write a v =
      .recompute (.mapper4 { r with r := r.r.set (r.select.toNat % 8) v (Nat.mod_lt _ (by decide)) }) := by
  have hb : a.toNat / 0x2000 % 4 = 0 := by omega
  rw [Mmc3.write, extractLsb_14_13_toNat, getLsbD_zero_eq_decide, hb, h0]; rfl

theorem Mmc3.write_mirror (ha : 0xA000 ≤ a.toNat) (hi : a.toNat < 0xC000) (h0 : a.toNat % 2 = 0) (v : Byte) :
    r.write a v = .recompute (.mapper4 { r with mirror := v.getLsbD 0 }) := by
  have hb : a.toNat / 0x2000 % 4 = 1 := by omega
  rw [Mmc3.write, extractLsb_14_13_toNat, getLsbD_zero_eq_decide a, hb, h0]; rfl

theorem Mmc3.write_noEffect (ha : 0xA000 ≤ a.toNat) (h : a.toNat % 2 = 1 ∨ 0xC000 ≤ a.toNat) (v : Byte) :
    r.write a v = .keepWindows (.mapper4 r) := by
  have := a.isLt
  rw [Mmc3.write, extractLsb_14_13_toNat, getLsbD_zero_eq_decide a]
  split
  · omega
  · omega
  · rename_i hb h0
    have := of_decide_eq_false h0
    omega
  · rfl

end

section
variable {s : State} {a : Word} {r : Mmc3}

theorem memWrite_mapper4_select (ha : 0x8000 ≤ a.toNat) (hm : s.mapper = .mapper4 r) (hi : a.toNat < 0xA000)
    (h0 : a.toNat % 2 = 0) (v : Byte) : MapperTakes s a v (.mapper4 { r with select := v }) :=
  memWrite_takes ha (by rw [hm]; exact Mmc3.write_select ha hi h0 v)

theorem memWrite_mapper4_bank (ha : 0x8000 ≤ a.toNat) (hm : s.mapper = .mapper4 r) (hi : a.toNat < 0xA000)
    (h1 : a.toNat % 2 = 1) (v : Byte) :
    ∃ q : Mmc3, q.select = r.select ∧ q.mirror = r.mirror ∧
      (∀ k (_ : k < 8), q.r[k] = if k = r.select.toNat % 8 then v else r.r[k]) ∧ MapperTakes s a v (.mapper4 q) := by
  refine ⟨{ r with r := r.r.set (r.select.toNat % 8) v (Nat.mod_lt _ (by decide)) }, rfl, rfl, fun k hk => ?_,
    memWrite_takes ha (by rw [hm]; exact Mmc3.write_bank ha hi h1 v)⟩
  simp only [Vector.getElem_set, eq_comm]

theorem memWrite_mapper4_mirror (ha : 0xA000 ≤ a.toNat) (hm : s.mapper = .mapper4 r) (hi : a.toNat < 0xC000)
    (h0 : a.toNat % 2 = 0) (v : Byte) : MapperTakes s a v (.mapper4 { r with mirror := v.getLsbD 0 }) :=
  memWrite_takes (by omega) (by rw [hm]; exact Mmc3.write_mirror ha hi h0 v)

theorem memWrite_mapper4_noEffect (ha : 0xA000 ≤ a.toNat) (hm : s.mapper = .mapper4 r)
    (h : a.toNat % 2 = 1 ∨ 0xC000 ≤ a.toNat) (v : Byte) : memWrite a v s = .ok () s := by
  have hw : s.mapper.write a v = .keepWindows s.mapper := by rw [hm]; exact Mmc3.write_noEffect ha h v
  exact memWrite_keepWindows (by omega) hw

end

/-- Settles O55: each clause is the register write of its mapper, carried to the bus by `memWrite_takes` where the windows are
recomputed and by `memWrite_keepWindows` where they are not. -/
theorem mapperRegisterWrites : Obligations.MapperRegisterWrites := by
  unfold Obligations.MapperRegisterWrites
  rintro s a v n c ha rfl rfl
  refine ⟨fun h => memWrite_noRegister ha (by rw [h]; rfl),
    fun _ h => memWrite_mapper2 ha h v,
    fun _ h hn hc hb => (memWrite_mapper2 ha h v).1 (mapper2_windows_fit hn hc hb),
    fun _ h hb => (memWrite_mapper2 ha h v).overflows (mapper2_windows_not_fit hb),
    fun _ h => memWrite_mapper3 ha h v,
    fun _ h hn hb => ⟨_, (memWrite_mapper3 ha h v).1 (mapper3_windows_fit hn hb), rfl, chrBank8_getElem _⟩,
    fun _ h hb => (memWrite_mapper3 ha h v).overflows (mapper3_windows_not_fit hb),
    fun _ h hv => memWrite_mapper1_abort ha h hv,
    fun r shift h hv hs => ⟨fun hc => ?bit, fun hc => memWrite_mapper1_fifth ha h hv hc hs⟩,
    fun r a0 a1 a2 a3 v0 v1 v2 v3 h hc h0 h1 h2 h3 b0 b1 b2 b3 hv => ?five,
    fun r h => ⟨fun hi h0 => memWrite_mapper4_select ha h hi h0 v, fun hi h1 => memWrite_mapper4_bank ha h hi h1 v,
      fun hl hi h0 => memWrite_mapper4_mirror hl h hi h0 v, fun hl hx => memWrite_mapper4_noEffect hl h hx v⟩⟩
  case bit => rw [Mmc1.eq_shiftIn_shift hs]; exact memWrite_mapper1_bit ha h hv hc
  case five =>
    obtain ⟨s1, s2, s3, shift, w0, w1, w2, w3, hs⟩ := memWrite_mapper1_four h hc h0 h1 h2 h3 b0 b1 b2 b3
    refine ⟨s1, s2, s3, _, shift, w0, w1, w2, w3, rfl, ?_⟩
    refine memWrite_mapper1_fifth (r := { r with shift := shift, count := 4 }) ha rfl hv rfl ?_
    rw [hs, BitVec.toNat_ofNat]; omega

end Sys2Proof.Machine
end

section
/-! SUPPORT. What keeps the stored state (the PPU, the cartridge, the mapper, the windows and the RAMs), part by part: from a
rule per write to it, a rule for the whole step; and what a write to a register of the PPU or of the mapper can do. -/

namespace Sys2Proof.Machine

/-- The two states hold the same PPU, cartridge, mapper, windows, SRAM and work RAM. -/
structure SameStore (s t : State) : Prop where
  ppu : t.ppu = s.ppu
  cart : t.cart = s.cart
  mapper : t.mapper = s.mapper
  win : t.win = s.win
  sram : t.sram = s.sram
  ram : t.ram = s.ram

/-- `P` is kept by what the devices do to the stored state: nothing, a bus read, and a write of a byte of OAM. -/
structure KeptByDevices (P : State → Prop) : Prop where
  same : ∀ {s t}, SameStore s t → P s → P t
  read : ∀ {a v s t}, memRead a s = .ok v t → P s → P t
  oam : ∀ {s} (k v : Byte), P s → P (s.withPpu { s.ppu with oam := s.ppu.oam.write k.toNat v })

/-- `P` is kept by everything that can happen to the stored state in a step: what the devices do, a write of a byte of work RAM
or SRAM, a write of a PPU register, a register write of the mapper, and a PPU tick. -/
structure KeptByParts (P : State → Prop) : Prop extends KeptByDevices P where
  ram : ∀ {s k} (v : Byte), k < 0x800 → P s → P { s with ram := s.ram.write k v }
  sram : ∀ {s k} (v : Byte), k < 0x2000 → P s → P { s with sram := s.sram.write k v }
  ppuReg : ∀ {r v s t}, ppuRegWrite r v s = .ok () t → P s → P t
  mapper : ∀ {a v s t}, mapperWrite a v s = .ok () t → P s → P t
  tick : ∀ {s}, P s → P (ppuTick s)

namespace KeptByDevices

variable {P : State → Prop} (hP : KeptByDevices P)
include hP

theorem dmcReaderCheck {s t : State} (h : Machine.dmcReaderCheck s = .ok () t) (hs : P s) : P t := by
  rcases dmcReaderCheck_cases h with ⟨-, rfl⟩ | ⟨-, -, b, u, hr, rfl⟩
  · exact hs
  · exact hP.same (s := u) ⟨rfl, rfl, rfl, rfl, rfl, rfl⟩ (hP.read hr hs)

theorem oamDmaCopy {page : Byte} {n : Nat} {s t : State} (h : Machine.oamDmaCopy page n s = .ok () t) (hs : P s) : P t := by
  induction n generalizing s with
  | zero => cases h; exact hs
  | succ n ih =>
    obtain ⟨b, u, hr, hk⟩ := Res.bind_eq_ok.1 h
    exact ih hk (hP.oam _ _ (hP.read hr hs))

theorem ioWrite {r : Nat} {v : Byte} {s t : State} (h : Machine.ioWrite r v s = .ok () t) (hs : P s) : P t := by
  unfold Machine.ioWrite at h
  split at h
  · obtain ⟨_, u, hr, hk⟩ := Res.bind_eq_ok.1 h
    cases hk
    exact hP.same (s := u) ⟨rfl, rfl, rfl, rfl, rfl, rfl⟩ (hP.oamDmaCopy hr hs)
  · have hu : P (s.withApu (s.apu.writeEnables v)) := hP.same (s := s) ⟨rfl, rfl, rfl, rfl, rfl, rfl⟩ hs
    unfold writeApuEnables at h
    dsimp only at h
    split at h
    · exact hP.dmcReaderCheck h hu
    · cases h; exact hu
  all_goals cases h; exact hP.same (s := s) ⟨rfl, rfl, rfl, rfl, rfl, rfl⟩ hs

theorem apuTick {s t : State} (h : Machine.apuTick s = .ok () t) (hs : P s) : P t :=
  hP.dmcReaderCheck h (hP.same (s := s) ⟨rfl, rfl, rfl, rfl, rfl, rfl⟩ hs)

end KeptByDevices

namespace KeptByParts

variable {P : State → Prop} (hP : KeptByParts P)
include hP

theorem memWrite {a : Word} {v : Byte} {s t : State} (h : Machine.memWrite a v s = .ok () t) (hs : P s) : P t := by
  unfold Machine.memWrite at h
  split at h
  case h_1 => cases h; exact hP.ram v (ramPlace_lt a) hs
  case h_2 => exact hP.ppuReg h hs
  case h_3 => exact hP.ioWrite h hs
  case h_4 => exact absurd h (raise_ne_ok _ _ _ _)
  case h_5 hr => cases h; exact hP.sram v (sramPlace_lt hr) hs
  case h_6 => exact hP.mapper h hs

theorem push (v : Byte) {s : State} (hs : P s) : P (Machine.push v s) :=
  hP.same (s := { s with ram := s.ram.write (stackPlace s.cpu.s) v }) ⟨rfl, rfl, rfl, rfl, rfl, rfl⟩
    (hP.ram v (stackPlace_lt _) hs)

theorem takeInterrupt (vec : Word) (n : Nat) {s : State} (hs : P s) : P (Machine.takeInterrupt vec n s) :=
  hP.same (s := Machine.push (s.cpu.status s.cpu.brk) (pushWord s.cpu.pc s)) ⟨rfl, rfl, rfl, rfl, rfl, rfl⟩
    (hP.push _ (hP.push _ (hP.push _ hs)))

theorem resolveInterrupt {s : State} (hs : P s) : P (Machine.resolveInterrupt s) := by
  unfold Machine.resolveInterrupt
  split
  · exact hs
  · exact hP.same (s := s) ⟨rfl, rfl, rfl, rfl, rfl, rfl⟩ hs
  · exact hP.takeInterrupt _ _ hs
  · split
    · exact hs
    · exact hP.takeInterrupt _ _ hs

/-- What every part keeps, a step keeps. -/
theorem step {s t : State} (h : Machine.step s = .next t) (hs : P s) : P t := by
  refine step_preserves P (fun {s t} hb hs => hP.same (s := s) ?_ hs) (fun {s} _ hs => hP.same (s := s) ?_ hs) hP.read
    hP.memWrite (fun {s} hs => hP.same (s := s) ?_ hs) hP.tick hP.apuTick hP.resolveInterrupt h hs
  · rw [hb]; exact ⟨rfl, rfl, rfl, rfl, rfl, rfl⟩
  · exact ⟨rfl, rfl, rfl, rfl, rfl, rfl⟩
  · exact ⟨rfl, rfl, rfl, rfl, rfl, rfl⟩

end KeptByParts

/-! ## What one write of the stored state can do -/

/-- Everything a PPU register write that goes on can do: it sets registers, writes a byte of OAM, or writes a byte of the
PPU's memory and advances v (R204). -/
theorem ppuRegWrite_cases {r : Nat} {v : Byte} {s t : State} (h : ppuRegWrite r v s = .ok () t) :
    (∃ p : Ppu, t = s.withPpu { s.ppu with ctrl := p.ctrl, mask := p.mask, oamaddr := p.oamaddr, v := p.v, t := p.t,
                                           x := p.x, w := p.w }) ∨
    t = s.withPpu (s.ppu.writeOamData v) ∨
    ∃ u, ppuWrite s.ppu.vramPlace v s = .ok () u ∧ t = u.withPpu u.ppu.advanceV := by
  unfold ppuRegWrite at h
  split at h
  case h_1 => cases h; exact .inl ⟨s.ppu.writeCtrl v, rfl⟩
  case h_2 => cases h; exact .inl ⟨s.ppu.writeMask v, rfl⟩
  case h_3 => cases h; exact .inl ⟨s.ppu.writeOamAddr v, rfl⟩
  case h_4 => cases h; exact .inr (.inl rfl)
  case h_5 =>
    cases h
    refine .inl ⟨s.ppu.writeScroll v, ?_⟩
    unfold Ppu.writeScroll
    split <;> rfl
  case h_6 =>
    cases h
    refine .inl ⟨s.ppu.writeAddr v, ?_⟩
    unfold Ppu.writeAddr
    split <;> rfl
  case h_7 =>
    obtain ⟨_, u, hw, hk⟩ := Res.bind_eq_ok.1 h
    cases hk
    exact .inr (.inr ⟨u, hw, rfl⟩)
  case h_8 => cases h; exact .inl ⟨s.ppu, rfl⟩

theorem Mmc1.write_mapper1 (r : Mmc1) (a : Word) (v : Byte) :
    ∃ q, r.write a v = .recompute (.mapper1 q) ∨ r.write a v = .keepWindows (.mapper1 q) := by
  unfold Mmc1.write
  split
  · exact ⟨_, .inl rfl⟩
  · dsimp only
    split
    · split <;> exact ⟨_, .inl rfl⟩
    · exact ⟨_, .inr rfl⟩

theorem Mmc3.write_mapper4 (r : Mmc3) (a : Word) (v : Byte) :
    ∃ q, r.write a v = .recompute (.mapper4 q) ∨ r.write a v = .keepWindows (.mapper4 q) := by
  unfold Mmc3.write
  split
  case h_4 => exact ⟨_, .inr rfl⟩
  all_goals exact ⟨_, .inl rfl⟩

theorem MapperWrite.registers_unique {w : MapperWrite} {p q : Mapper} (hp : w = .recompute p ∨ w = .keepWindows p)
    (hq : w = .recompute q ∨ w = .keepWindows q) : q = p := by
  rcases hp with rfl | rfl <;> simpa [eq_comm] using hq

/-- A register write keeps the kind of mapper (R320). -/
theorem Mapper.write_number {m q : Mapper} {a : Word} {v : Byte}
    (h : m.write a v = .recompute q ∨ m.write a v = .keepWindows q) : q.number = m.number := by
  cases m with
  | mapper0 => simp [Mapper.write] at h
  | mapper1 r =>
    obtain ⟨p, hp⟩ := r.write_mapper1 a v
    rw [MapperWrite.registers_unique hp h]; rfl
  | mapper2 => rw [MapperWrite.registers_unique (.inl rfl) h]; rfl
  | mapper3 => rw [MapperWrite.registers_unique (.inl rfl) h]; rfl
  | mapper4 r =>
    obtain ⟨p, hp⟩ := r.write_mapper4 a v
    rw [MapperWrite.registers_unique hp h]; rfl

end Sys2Proof.Machine
end

section
/-! SUPPORT. The invariants of the stored state: O32, O44 and O59. -/

namespace Sys2Proof.Machine

/-! ## ROM (R47, R70, R329, R397) -/

/-- What of the cartridge and of its mapper no access changes, from `s` to `t`. -/
structure RomKept (s t : State) : Prop where
  prg : t.cart.prg = s.cart.prg
  chr : s.cart.chrIsRam = false → t.cart.chr = s.cart.chr
  chrPages : t.cart.chr.length = s.cart.chr.length
  chrIsRam : t.cart.chrIsRam = s.cart.chrIsRam
  hdrMirroring : t.cart.hdrMirroring = s.cart.hdrMirroring
  sramFlag : t.cart.sramFlag = s.cart.sramFlag
  mapper : t.mapper.number = s.mapper.number

theorem RomKept.of_eq {s t : State} (hc : t.cart = s.cart) (hm : t.mapper.number = s.mapper.number) : RomKept s t := by
  constructor <;> simp only [hc, hm, implies_true]

theorem RomKept.trans {s t u : State} (h : RomKept s t) (h' : RomKept t u) : RomKept s u where
  prg := h'.prg.trans h.prg
  chr hr := (h'.chr (h.chrIsRam.trans hr)).trans (h.chr hr)
  chrPages := h'.chrPages.trans h.chrPages
  chrIsRam := h'.chrIsRam.trans h.chrIsRam
  hdrMirroring := h'.hdrMirroring.trans h.hdrMirroring
  sramFlag := h'.sramFlag.trans h.sramFlag
  mapper := h'.mapper.trans h.mapper

theorem ppuRegWrite_romKept {r : Nat} {v : Byte} {s t : State} (h : ppuRegWrite r v s = .ok () t) : RomKept s t := by
  rcases ppuRegWrite_cases h with ⟨p, rfl⟩ | rfl | ⟨u, hw, rfl⟩
  · exact .of_eq rfl rfl
  · exact .of_eq rfl rfl
  · rcases ppuWrite_cases hw with ⟨-, hram, rfl⟩ | ⟨-, -, rfl⟩ | ⟨-, rfl⟩
    · exact ⟨rfl, fun hrom => absurd (hram.symm.trans hrom) (by decide), List.length_modify .., rfl, rfl, rfl, rfl⟩
    · exact .of_eq rfl rfl
    · exact .of_eq rfl rfl

theorem mapperWrite_romKept {a : Word} {v : Byte} {s t : State} (h : mapperWrite a v s = .ok () t) : RomKept s t := by
  rcases mapperWrite_cases h with ⟨m, hm, rfl⟩ | ⟨m, hm, -, rfl⟩
  · exact .of_eq rfl (Mapper.write_number (.inr hm))
  · exact .of_eq rfl (Mapper.write_number (.inl hm))

theorem romKept_keptByParts (s : State) : KeptByParts (RomKept s) where
  same h hs := hs.trans (.of_eq h.cart (congrArg _ h.mapper))
  read h hs := hs.trans (.of_eq (by rw [(memRead_frame h).1]) (by rw [(memRead_frame h).1]))
  ram _ _ hs := hs.trans (.of_eq rfl rfl)
  sram _ _ hs := hs.trans (.of_eq rfl rfl)
  oam _ _ hs := hs.trans (.of_eq rfl rfl)
  ppuReg h hs := hs.trans (ppuRegWrite_romKept h)
  mapper h hs := hs.trans (mapperWrite_romKept h)
  tick hs := hs.trans (.of_eq (by rw [ppuTick_frame]) (by rw [ppuTick_frame]))

/-- Settles O32: only a PPU register write and a mapper register write reach the cartridge or the mapper; the one changes
CHR-RAM alone, the other the registers of a mapper of the same kind. -/
theorem romNeverChanges : Obligations.RomNeverChanges := by
  unfold Obligations.RomNeverChanges
  intro s t h
  obtain ⟨hprg, hchr, hpages, hram, hmir, hsram, hmap⟩ := (romKept_keptByParts s).step h (.of_eq rfl rfl)
  exact ⟨hprg, hchr, hpages, hram, hmir, hsram, hmap⟩

/-! ## The PPU's position (R35, R228, R230) -/

theorem PpuInv.of_eq {s t : State} (h : PpuInv s) (hline : t.ppu.scanline = s.ppu.scanline)
    (hpixel : t.ppu.pixel = s.ppu.pixel) (hovf : t.ppu.ovf = s.ppu.ovf) : PpuInv t :=
  ⟨hline ▸ h.line, hpixel ▸ h.pixel, hovf ▸ h.ovf⟩

@[simp] theorem scrollReload_scanline (u : Ppu) : (scrollReload u).scanline = u.scanline := by
  unfold scrollReload; dsimp only; split <;> rfl

@[simp] theorem scrollReload_pixel (u : Ppu) : (scrollReload u).pixel = u.pixel := by
  unfold scrollReload; dsimp only; split <;> rfl

@[simp] theorem scrollReload_ovf (u : Ppu) : (scrollReload u).ovf = u.ovf := by
  unfold scrollReload; dsimp only; split <;> rfl

/-- The events of a tick never set the overflow bit (R228). -/
theorem tickEvents_ovf {s : State} (h : s.ppu.ovf = false) : (tickEvents s).ppu.ovf = false := by
  unfold tickEvents
  split
  · exact h
  · split
    · rfl
    · split
      · dsimp only; split
        · exact (scrollReload_ovf s.ppu).trans h
        · exact h
      · exact h

/-- The advance keeps the position in its range (R35, R215). -/
theorem advancePosition_range {u : Ppu} (hline : -1 ≤ u.scanline ∧ u.scanline ≤ 260) (hpixel : u.pixel ≤ 340) :
    (-1 ≤ (advancePosition u).scanline ∧ (advancePosition u).scanline ≤ 260) ∧ (advancePosition u).pixel ≤ 340 := by
  have hnext : (if u.scanline = -1 ∧ u.pixel = 336 ∧ u.odd ∧ u.background then 338 else u.pixel + 1) ≤ 341 := by
    split <;> omega
  unfold advancePosition Config.pixelsPerScanline Config.totalScanlines
  dsimp only
  generalize (if u.scanline = -1 ∧ u.pixel = 336 ∧ u.odd ∧ u.background then 338 else u.pixel + 1) = next at hnext ⊢
  split
  · split <;> dsimp only <;> omega
  · exact ⟨hline, by dsimp only; omega⟩

theorem ppuTick_ppuInv {s : State} (h : PpuInv s) : PpuInv (ppuTick s) := by
  obtain ⟨hline, hpixel, -⟩ := tickEvents_position s
  have range := advancePosition_range (u := (tickEvents s).ppu) (hline ▸ h.line) (hpixel ▸ h.pixel)
  refine ⟨range.1, range.2, ?_⟩
  show (advancePosition (tickEvents s).ppu).ovf = false
  rw [advancePosition_frame]
  exact tickEvents_ovf h.ovf

theorem ppuRegWrite_ppuInv {r : Nat} {v : Byte} {s t : State} (h : ppuRegWrite r v s = .ok () t) (hs : PpuInv s) :
    PpuInv t := by
  rcases ppuRegWrite_cases h with ⟨p, rfl⟩ | rfl | ⟨u, hw, rfl⟩
  · exact hs.of_eq rfl rfl rfl
  · exact hs.of_eq rfl rfl rfl
  · rcases ppuWrite_cases hw with ⟨-, -, rfl⟩ | ⟨-, -, rfl⟩ | ⟨-, rfl⟩ <;> exact hs.of_eq rfl rfl rfl

theorem ppuInv_keptByParts : KeptByParts PpuInv where
  same h hs := hs.of_eq (by rw [h.ppu]) (by rw [h.ppu]) (by rw [h.ppu])
  read h hs := hs.of_eq (by rw [(memRead_frame h).1]) (by rw [(memRead_frame h).1]) (by rw [(memRead_frame h).1])
  ram _ _ hs := hs.of_eq rfl rfl rfl
  sram _ _ hs := hs.of_eq rfl rfl rfl
  oam _ _ hs := hs.of_eq rfl rfl rfl
  ppuReg h hs := ppuRegWrite_ppuInv h hs
  mapper h hs := by rcases mapperWrite_cases h with ⟨m, -, rfl⟩ | ⟨m, -, -, rfl⟩ <;> exact hs.of_eq rfl rfl rfl
  tick hs := ppuTick_ppuInv hs

/-- Settles O44: only a PPU tick moves the position, and its advance stays in range; nothing sets the overflow bit. -/
theorem ppuInvariantKept : Obligations.PpuInvariantKept := by
  unfold Obligations.PpuInvariantKept
  exact fun s t hs h => ppuInv_keptByParts.step h hs

/-! ## Every memory canonical and of its size (R37 to R40, R47, R49, R50) -/

theorem MemoryInv.of_store {s t : State} (h : MemoryInv s) (hs : SameStore s t) : MemoryInv t := by
  obtain ⟨ram, sram, prg, chr, ciram, oam, pal, attr, spr, fb⟩ := h
  constructor <;> simpa only [hs.ppu, hs.cart, hs.sram, hs.ram]

/-- A write in the PPU's address space lands inside the memory it reaches (R71 to R74). -/
theorem ppuWrite_memoryInv {a : PpuAddr} {v : Byte} {s t : State} (h : ppuWrite a v s = .ok () t) (hs : MemoryInv s) :
    MemoryInv t := by
  rcases ppuWrite_cases h with ⟨-, -, rfl⟩ | ⟨-, -, rfl⟩ | ⟨-, rfl⟩
  · exact { hs with chr := forall_mem_modify hs.chr _ fun m hm => hm.write (Nat.mod_lt _ (by decide)) v }
  · exact { hs with ciram := hs.ciram.write (ciramPlace_lt s _) v }
  · exact { hs with pal := ⟨hs.pal.1.set _ _, hs.pal.2.set (palIndex_lt _) _⟩ }

theorem oamWrite_memoryInv {s : State} (k v : Byte) (hs : MemoryInv s) :
    MemoryInv (s.withPpu { s.ppu with oam := s.ppu.oam.write k.toNat v }) :=
  { hs with oam := hs.oam.write k.isLt v }

theorem ppuRegWrite_memoryInv {r : Nat} {v : Byte} {s t : State} (h : ppuRegWrite r v s = .ok () t) (hs : MemoryInv s) :
    MemoryInv t := by
  rcases ppuRegWrite_cases h with ⟨p, rfl⟩ | rfl | ⟨u, hw, rfl⟩
  · exact { hs with }
  · exact { oamWrite_memoryInv s.ppu.oamaddr v hs with }
  · exact { ppuWrite_memoryInv hw hs with }

/-- A drawn pixel is one place of the framebuffer, on the screen (R40, R221). -/
theorem drawPixel_memoryInv {s : State} {y p : Nat} (hs : MemoryInv s) (hy : y < 240) (hp : p < 256) (k : Nat) :
    MemoryInv (s.withPpu (scrollAfterPixel (drawPixel s y p) k)) :=
  { hs with fb := hs.fb.set hy hp _ }

theorem scrollReload_memoryInv {s : State} (hs : MemoryInv s) : MemoryInv (s.withPpu (scrollReload s.ppu)) := by
  unfold scrollReload
  dsimp only
  split
  · have hattr := computeAttrCache_sized s.ppu.ciram
    generalize computeAttrCache s.ppu.ciram = attr at hattr ⊢
    exact { hs with attr := hattr }
  · exact { hs with }

/-- The events of a tick write the framebuffer on the screen alone, and compute the sprite buffer and the cache of R219 anew
(R215 to R224). -/
theorem tickEvents_memoryInv {s : State} (hs : MemoryInv s) : MemoryInv (tickEvents s) := by
  unfold tickEvents
  split
  · exact { hs with }
  · split
    · exact { hs with spr := computeSprites_screen s }
    · split
      case isTrue hvis =>
        simp only [Ppu.visibleLine, Bool.and_eq_true, decide_eq_true_eq] at hvis
        obtain ⟨⟨-, hline⟩, hpixel⟩ := hvis
        dsimp only
        split
        · have hr := scrollReload_memoryInv hs
          refine drawPixel_memoryInv hr ?_ ?_ _
          · simp only [State.withPpu_ppu, scrollReload_scanline]; omega
          · simp only [State.withPpu_ppu, scrollReload_pixel]; omega
        · exact drawPixel_memoryInv hs (by omega) (by omega) _
      · exact hs

theorem memoryInv_keptByParts : KeptByParts MemoryInv where
  same h hs := hs.of_store h
  read h hs := by rw [(memRead_frame h).1]; exact { hs with }
  ram v hk hs := { hs with ram := hs.ram.write hk v }
  sram v hk hs := { hs with sram := hs.sram.write hk v }
  oam k v hs := oamWrite_memoryInv k v hs
  ppuReg h hs := ppuRegWrite_memoryInv h hs
  mapper h hs := by rcases mapperWrite_cases h with ⟨m, -, rfl⟩ | ⟨m, -, -, rfl⟩ <;> exact { hs with }
  tick {s} hs := by
    unfold ppuTick
    dsimp only
    rw [advancePosition_frame]
    exact { tickEvents_memoryInv hs with }

/-- Settles O59: every write of a memory lands inside it, and keeps the canonical form. -/
theorem memoryInvariantKept : Obligations.MemoryInvariantKept := by
  unfold Obligations.MemoryInvariantKept
  exact fun s t hs h => memoryInv_keptByParts.step h hs

end Sys2Proof.Machine
end

section
/-! SUPPORT. The status byte (R24, R25): its bits, and O22. -/

namespace Sys2Proof.Machine

/-- The composed byte, bit by bit: `{N, V, 1, b, D, I, Z, C}` (R24). -/
theorem Cpu.status_bits (c : Cpu) (b : Bool) :
    (c.status b).getLsbD 7 = c.n ∧ (c.status b).getLsbD 6 = c.v ∧ (c.status b).getLsbD 5 = true ∧
    (c.status b).getLsbD 4 = b ∧ (c.status b).getLsbD 3 = c.d ∧ (c.status b).getLsbD 2 = c.i ∧
    (c.status b).getLsbD 1 = c.z ∧ (c.status b).getLsbD 0 = c.c := by
  have bits : ∀ n v b d i z c : Bool,
      let p := ({ Cpu.powerUp with n := n, v := v, d := d, i := i, z := z, c := c } : Cpu).status b
      p.getLsbD 7 = n ∧ p.getLsbD 6 = v ∧ p.getLsbD 5 = true ∧ p.getLsbD 4 = b ∧ p.getLsbD 3 = d ∧ p.getLsbD 2 = i ∧
      p.getLsbD 1 = z ∧ p.getLsbD 0 = c := by decide
  exact bits c.n c.v b c.d c.i c.z c.c

/-- Loading a composed byte gives back the flags it was composed of, whatever bit 4 was (R24, R25). -/
theorem Cpu.flag_setStatus_status (c d : Cpu) (b : Bool) (f : Flag) : (c.setStatus (d.status b)).flag f = d.flag f := by
  obtain ⟨hn, hv, -, -, hd, hi, hz, hc⟩ := d.status_bits b
  cases f
  case n => exact hn
  case v => exact hv
  case d => exact hd
  case i => exact hi
  case z => exact hz
  case c => exact hc

/-- Settles O22: the eight bits of the composed byte; loading is what `Cpu.setStatus` says; loading undoes composing. -/
theorem statusByte : Obligations.StatusByte := by
  unfold Obligations.StatusByte
  exact ⟨Cpu.status_bits, fun _ _ => rfl, Cpu.flag_setStatus_status⟩

end Sys2Proof.Machine
end

section
/-! SUPPORT. What a store changes (R63, R64, R96, R150, R180, R181): the bytes of memory after a bus write and after a push,
which instructions store and which push, and O28. -/

namespace Sys2Proof.Machine

/-! ## The bytes of memory -/

theorem le_of_regionOf_sram {a : Word} (h : regionOf a = .sram) : 0x6000 ≤ a.toNat := by
  unfold regionOf at h
  split at h
  · cases h
  · split at h
    · cases h
    · split at h
      · cases h
      · split at h
        · cases h
        · omega

/-- The bytes of memory are those of work RAM, SRAM and the windows into the PRG pages (R61). -/
theorem byteAt_congr {s t : State} (hram : t.ram = s.ram) (hsram : t.sram = s.sram) (hprg : t.cart.prg = s.cart.prg)
    (hwin : t.win = s.win) (a : Word) : t.byteAt a = s.byteAt a := by
  simp only [State.byteAt, prgRead, prgPageOf, hram, hsram, hprg, hwin]

/-- Outside the PRG range a byte of memory does not depend on the windows. -/
theorem byteAt_congr_of_ne_prg {s t : State} {a : Word} (ha : regionOf a ≠ .prg) (hram : t.ram = s.ram)
    (hsram : t.sram = s.sram) : t.byteAt a = s.byteAt a := by
  unfold State.byteAt
  split <;> simp_all

theorem byteAt_writeRam {s : State} {a b : Word} (v : Byte) (ha : regionOf a = .workRam) (h : ¬ samePlace a b) :
    State.byteAt { s with ram := s.ram.write (ramPlace a) v } b = s.byteAt b := by
  unfold State.byteAt
  split
  case h_1 hb =>
    have hne : ramPlace b ≠ ramPlace a := fun e => h (.inl ⟨ha, hb, e.symm⟩)
    exact congrArg some (Memory.read_write_ne _ v hne)
  all_goals rfl

theorem sramPlace_inj {a b : Word} (ha : regionOf a = .sram) (hb : regionOf b = .sram) (h : sramPlace a = sramPlace b) :
    a = b := by
  have := le_of_regionOf_sram ha
  have := le_of_regionOf_sram hb
  unfold sramPlace at h
  exact BitVec.eq_of_toNat_eq (by omega)

theorem byteAt_writeSram {s : State} {a b : Word} (v : Byte) (ha : regionOf a = .sram) (h : ¬ samePlace a b) :
    State.byteAt { s with sram := s.sram.write (sramPlace a) v } b = s.byteAt b := by
  unfold State.byteAt
  split
  case h_2 hb =>
    have hne : sramPlace b ≠ sramPlace a := fun e => h (.inr ⟨ha, sramPlace_inj ha hb e.symm⟩)
    exact congrArg some (Memory.read_write_ne _ v hne)
  all_goals rfl

/-- Writes of the device registers change no byte of memory (R63, R78). -/
theorem byteAt_keptByDevices (s : State) (a : Word) : KeptByDevices fun t => t.byteAt a = s.byteAt a where
  same h hs := (byteAt_congr h.ram h.sram (by rw [h.cart]) h.win a).trans hs
  read h hs := (memRead_byteAt h a).trans hs
  oam _ _ hs := hs

theorem ppuRegWrite_byteAt {r : Nat} {v : Byte} {s t : State} (h : ppuRegWrite r v s = .ok () t) (a : Word) :
    t.byteAt a = s.byteAt a := by
  rcases ppuRegWrite_cases h with ⟨p, rfl⟩ | rfl | ⟨u, hw, rfl⟩
  · rfl
  · rfl
  · rcases ppuWrite_cases hw with ⟨-, -, rfl⟩ | ⟨-, -, rfl⟩ | ⟨-, rfl⟩ <;> rfl

/-- A bus write leaves every byte but the one it reaches; a write to the PRG range moves the windows, so it leaves every byte
outside that range. -/
theorem memWrite_byteAt {a b : Word} {v : Byte} {s t : State} (h : memWrite a v s = .ok () t)
    (hprg : regionOf a ≠ .prg ∨ regionOf b ≠ .prg) (hne : ¬ samePlace a b) : t.byteAt b = s.byteAt b := by
  unfold memWrite at h
  split at h
  case h_1 ha => cases h; exact byteAt_writeRam v ha hne
  case h_2 => exact ppuRegWrite_byteAt h b
  case h_3 => exact (byteAt_keptByDevices s b).ioWrite h rfl
  case h_4 => exact absurd h (raise_ne_ok _ _ _ _)
  case h_5 ha => cases h; exact byteAt_writeSram v ha hne
  case h_6 ha =>
    have hb : regionOf b ≠ .prg := hprg.resolve_left (Classical.not_not.2 ha)
    rcases mapperWrite_cases h with ⟨m, -, rfl⟩ | ⟨m, -, -, rfl⟩ <;> exact byteAt_congr_of_ne_prg hb rfl rfl

/-- A push leaves every byte but the one at `0x0100 | S` (R13, R21). -/
theorem push_byteAt {a : Word} (v : Byte) (s : State) (h : ¬ samePlace (stackAddress s.cpu.s) a) :
    (push v s).byteAt a = s.byteAt a := by
  have write := memWrite_byteAt (memWrite_stack s.cpu.s v s) (.inl (by rw [regionOf_stack]; decide)) h
  exact write

/-! ## Which instructions store and which push -/

/-- A destination in memory is that of a store or of a read-modify-write (R96). -/
theorem exec_of_destinationOf {i : Instr} {m : Mode} (h : destinationOf i = some m) :
    (∃ v, ∀ s, exec i s = storeInstr m v s) ∨ ∃ f, ∀ s, exec i s = modifyInstr m f s := by
  cases i with
  | staZp | staZpX | staAbs | staAbsX | staAbsY | staIndX | staIndY => cases h; exact .inl ⟨Cpu.a, fun _ => rfl⟩
  | stxZp | stxZpY | stxAbs => cases h; exact .inl ⟨Cpu.x, fun _ => rfl⟩
  | styZp | styZpX | styAbs => cases h; exact .inl ⟨Cpu.y, fun _ => rfl⟩
  | incZp | incZpX | incAbs | incAbsX => cases h; exact .inr ⟨modInc, fun _ => rfl⟩
  | decZp | decZpX | decAbs | decAbsX => cases h; exact .inr ⟨modDec, fun _ => rfl⟩
  | aslZp | aslZpX | aslAbs | aslAbsX => cases h; exact .inr ⟨modAsl, fun _ => rfl⟩
  | lsrZp | lsrZpX | lsrAbs | lsrAbsX => cases h; exact .inr ⟨modLsr, fun _ => rfl⟩
  | rolZp | rolZpX | rolAbs | rolAbsX => cases h; exact .inr ⟨modRol, fun _ => rfl⟩
  | rorZp | rorZpX | rorAbs | rorAbsX => cases h; exact .inr ⟨modRor, fun _ => rfl⟩
  | _ => cases h

theorem eq_of_pushes {i : Instr} (h : pushes i) : i = .pha ∨ i = .php ∨ ∃ w, i = .jsrAbs w := by
  cases i with
  | pha => exact .inl rfl
  | php => exact .inr (.inl rfl)
  | jsrAbs w => exact .inr (.inr ⟨w, rfl⟩)
  | _ => simp [pushes, mnemonicOf] at h

/-! ## The frame of a store -/

/-- What a store may change: what a bus write may, and the CPU. -/
def StoreFrame (s t : State) : Prop := WriteFrame (s.withCpu t.cpu) t

theorem StoreFrame.withCpu (s : State) (c : Cpu) : StoreFrame s (s.withCpu c) := rfl

theorem StoreFrame.trans {s t u : State} (h : StoreFrame s t) (h' : StoreFrame t u) : StoreFrame s u := by
  unfold StoreFrame WriteFrame at h h' ⊢; rw [h']; rw [h]; rfl

theorem WriteFrame.store {s t : State} (h : WriteFrame s t) : StoreFrame s t := by
  unfold StoreFrame WriteFrame at *; rw [h]; rfl

theorem exec_destination_frame {i : Instr} {m : Mode} {s t : State} (hd : destinationOf i = some m)
    (h : exec i s = .next t) : StoreFrame s t := by
  rcases exec_of_destinationOf hd with ⟨v, e⟩ | ⟨f, e⟩
  · rw [e, storeInstr_eq_next] at h
    exact (memWrite_frame h).store
  · rw [e, modifyInstr_eq_next] at h
    obtain ⟨v, u, w, hr, hw, rfl⟩ := h
    have read : StoreFrame s u := (memRead_frame hr).write.store
    have write : StoreFrame u w := (StoreFrame.withCpu u _).trans (memWrite_frame hw).store
    exact (read.trans write).trans (.withCpu w _)

theorem exec_destination_byteAt {i : Instr} {m : Mode} {s t : State} {a : Word} (hd : destinationOf i = some m)
    (h : exec i s = .next t) (hprg : regionOf (effectiveAddress m s) ≠ .prg ∨ regionOf a ≠ .prg)
    (hne : ¬ samePlace (effectiveAddress m s) a) : t.byteAt a = s.byteAt a := by
  rcases exec_of_destinationOf hd with ⟨v, e⟩ | ⟨f, e⟩
  · rw [e, storeInstr_eq_next] at h
    exact memWrite_byteAt h hprg hne
  · rw [e, modifyInstr_eq_next] at h
    obtain ⟨v, u, w, hr, hw, rfl⟩ := h
    exact (memWrite_byteAt hw hprg hne).trans (memRead_byteAt hr a)

/-- Settles O28: a store is one bus write at its effective address, a read-modify-write a bus read and a bus write there, and
PHA, PHP and JSR are pushes. -/
theorem storingFrame : Obligations.StoringFrame := by
  unfold Obligations.StoringFrame
  refine ⟨fun i m s t hd h => ?_, fun i s t hp h => ?_⟩
  · exact ⟨fun a hprg hne => exec_destination_byteAt hd h hprg hne, exec_destination_frame hd h⟩
  · rcases eq_of_pushes hp with rfl | rfl | ⟨w, rfl⟩
    · cases h; exact ⟨fun a ha _ => push_byteAt _ s ha, rfl⟩
    · cases h; exact ⟨fun a ha _ => push_byteAt _ s ha, rfl⟩
    · cases h
      refine ⟨fun a ha hj => ?_, rfl⟩
      exact (push_byteAt _ (push _ s) (hj rfl)).trans (push_byteAt _ s ha)

end Sys2Proof.Machine
end

section
/-! SUPPORT. What an instruction leaves of the CPU (R20, R21, R26, R27): each operation on the CPU is a chain of writes of one
field, each allowed by the tables; and O26. -/

namespace Sys2Proof.Machine

/-! ## Writes the tables allow -/

/-- From `c` to `d` no field of the CPU changes but those that the tables of R20, R21 and R26 and the rules of control transfer
let the instruction `i` write. -/
structure CpuKept (i : Instr) (c d : Cpu) : Prop where
  flag : ∀ f, mnemonicOf i ∉ flagWriters f → d.flag f = c.flag f
  a : mnemonicOf i ∉ writersOfA → ¬ onAccumulator i → d.a = c.a
  x : mnemonicOf i ∉ writersOfX → d.x = c.x
  y : mnemonicOf i ∉ writersOfY → d.y = c.y
  s : mnemonicOf i ∉ writersOfS → d.s = c.s
  pc : mnemonicOf i ∉ writersOfPc → d.pc = c.pc
  brk : i ≠ .brk → d.brk = c.brk

namespace CpuKept

/-! Each write takes the proof that its field is listed for the mnemonic; for a given instruction the lists are looked up. -/

variable {i : Instr}

theorem refl (c : Cpu) : CpuKept i c c :=
  ⟨fun _ _ => rfl, fun _ _ => rfl, fun _ => rfl, fun _ => rfl, fun _ => rfl, fun _ => rfl, fun _ => rfl⟩

theorem trans {c d e : Cpu} (h : CpuKept i c d) (h' : CpuKept i d e) : CpuKept i c e where
  flag f hf := (h'.flag f hf).trans (h.flag f hf)
  a hm ha := (h'.a hm ha).trans (h.a hm ha)
  x hm := (h'.x hm).trans (h.x hm)
  y hm := (h'.y hm).trans (h.y hm)
  s hm := (h'.s hm).trans (h.s hm)
  pc hm := (h'.pc hm).trans (h.pc hm)
  brk hm := (h'.brk hm).trans (h.brk hm)

theorem setA (c : Cpu) (v : Byte) (h : mnemonicOf i ∈ writersOfA := by exact of_decide_eq_true rfl) :
    CpuKept i c { c with a := v } :=
  { refl c with a := fun hm _ => absurd h hm }

theorem setAcc (c : Cpu) (v : Byte) (h : onAccumulator i) : CpuKept i c { c with a := v } :=
  { refl c with a := fun _ ha => absurd h ha }

theorem setX (c : Cpu) (v : Byte) (h : mnemonicOf i ∈ writersOfX := by exact of_decide_eq_true rfl) :
    CpuKept i c { c with x := v } :=
  { refl c with x := absurd h }

theorem setY (c : Cpu) (v : Byte) (h : mnemonicOf i ∈ writersOfY := by exact of_decide_eq_true rfl) :
    CpuKept i c { c with y := v } :=
  { refl c with y := absurd h }

theorem setS (c : Cpu) (v : Byte) (h : mnemonicOf i ∈ writersOfS := by exact of_decide_eq_true rfl) :
    CpuKept i c { c with s := v } :=
  { refl c with s := absurd h }

theorem setPc (c : Cpu) (v : Word) (h : mnemonicOf i ∈ writersOfPc := by exact of_decide_eq_true rfl) :
    CpuKept i c { c with pc := v } :=
  { refl c with pc := absurd h }

theorem setN (c : Cpu) (b : Bool) (h : mnemonicOf i ∈ flagWriters .n := by exact of_decide_eq_true rfl) :
    CpuKept i c { c with n := b } :=
  { refl c with
    flag := fun f hf => by
      cases f with
      | n => exact absurd h hf
      | _ => rfl }

theorem setZ (c : Cpu) (b : Bool) (h : mnemonicOf i ∈ flagWriters .z := by exact of_decide_eq_true rfl) :
    CpuKept i c { c with z := b } :=
  { refl c with
    flag := fun f hf => by
      cases f with
      | z => exact absurd h hf
      | _ => rfl }

theorem setC (c : Cpu) (b : Bool) (h : mnemonicOf i ∈ flagWriters .c := by exact of_decide_eq_true rfl) :
    CpuKept i c { c with c := b } :=
  { refl c with
    flag := fun f hf => by
      cases f with
      | c => exact absurd h hf
      | _ => rfl }

theorem setV (c : Cpu) (b : Bool) (h : mnemonicOf i ∈ flagWriters .v := by exact of_decide_eq_true rfl) :
    CpuKept i c { c with v := b } :=
  { refl c with
    flag := fun f hf => by
      cases f with
      | v => exact absurd h hf
      | _ => rfl }

theorem setI (c : Cpu) (b : Bool) (h : mnemonicOf i ∈ flagWriters .i := by exact of_decide_eq_true rfl) :
    CpuKept i c { c with i := b } :=
  { refl c with
    flag := fun f hf => by
      cases f with
      | i => exact absurd h hf
      | _ => rfl }

theorem setD (c : Cpu) (b : Bool) (h : mnemonicOf i ∈ flagWriters .d := by exact of_decide_eq_true rfl) :
    CpuKept i c { c with d := b } :=
  { refl c with
    flag := fun f hf => by
      cases f with
      | d => exact absurd h hf
      | _ => rfl }

/-! ## The operations on the CPU -/

theorem setNZ (c : Cpu) (v : Byte) (h : mnemonicOf i ∈ flagWriters .n := by exact of_decide_eq_true rfl) :
    CpuKept i c (c.setNZ v) :=
  (setZ c (v == 0) h).trans (setN _ v.msb h)

theorem loadA (c : Cpu) (v : Byte) (hA : mnemonicOf i ∈ writersOfA := by exact of_decide_eq_true rfl)
    (hN : mnemonicOf i ∈ flagWriters .n := by exact of_decide_eq_true rfl) : CpuKept i c (c.loadA v) :=
  (setA c v hA).trans (setNZ _ v hN)

theorem loadX (c : Cpu) (v : Byte) (hX : mnemonicOf i ∈ writersOfX := by exact of_decide_eq_true rfl)
    (hN : mnemonicOf i ∈ flagWriters .n := by exact of_decide_eq_true rfl) : CpuKept i c (c.loadX v) :=
  (setX c v hX).trans (setNZ _ v hN)

theorem loadY (c : Cpu) (v : Byte) (hY : mnemonicOf i ∈ writersOfY := by exact of_decide_eq_true rfl)
    (hN : mnemonicOf i ∈ flagWriters .n := by exact of_decide_eq_true rfl) : CpuKept i c (c.loadY v) :=
  (setY c v hY).trans (setNZ _ v hN)

theorem adc (c : Cpu) (m : Byte) (hA : mnemonicOf i ∈ writersOfA := by exact of_decide_eq_true rfl)
    (hN : mnemonicOf i ∈ flagWriters .n := by exact of_decide_eq_true rfl)
    (hC : mnemonicOf i ∈ flagWriters .c := by exact of_decide_eq_true rfl)
    (hV : mnemonicOf i ∈ flagWriters .v := by exact of_decide_eq_true rfl) : CpuKept i c (c.adc m) :=
  let r := BitVec.ofNat 8 (c.sum m)
  (((setC c (decide (c.sum m > 0xFF)) hC).trans (setV _ ((c.a ^^^ r) &&& (m ^^^ r)).msb hV)).trans (setA _ r hA)).trans
    (setNZ _ r hN)

theorem compare (c : Cpu) (reg m : Byte) (hN : mnemonicOf i ∈ flagWriters .n := by exact of_decide_eq_true rfl)
    (hC : mnemonicOf i ∈ flagWriters .c := by exact of_decide_eq_true rfl) : CpuKept i c (c.compare reg m) :=
  (setC c _ hC).trans (setNZ _ _ hN)

theorem bit (c : Cpu) (m : Byte) (hN : mnemonicOf i ∈ flagWriters .n := by exact of_decide_eq_true rfl)
    (hV : mnemonicOf i ∈ flagWriters .v := by exact of_decide_eq_true rfl) : CpuKept i c (c.bit m) :=
  ((setZ c ((c.a &&& m) == 0) hN).trans (setN _ (m.getLsbD 7) hN)).trans (setV _ (m.getLsbD 6) hV)

/-- A loaded status byte writes the six flags alone (R25). -/
theorem setStatus (c : Cpu) (m : Byte) (h : ∀ f, mnemonicOf i ∈ flagWriters f) : CpuKept i c (c.setStatus m) :=
  { refl c with flag := fun f hf => absurd (h f) hf }

theorem pull (s : State) (h : mnemonicOf i ∈ writersOfS := by exact of_decide_eq_true rfl) :
    CpuKept i s.cpu (pull s).2.cpu :=
  setS s.cpu _ h

theorem push (v : Byte) (s : State) (h : mnemonicOf i ∈ writersOfS := by exact of_decide_eq_true rfl) :
    CpuKept i s.cpu (push v s).cpu :=
  setS s.cpu _ h

theorem pullWord (s : State) (h : mnemonicOf i ∈ writersOfS := by exact of_decide_eq_true rfl) :
    CpuKept i s.cpu (pullWord s).2.cpu :=
  (pull s h).trans (pull _ h)

theorem pushWord (w : Word) (s : State) (h : mnemonicOf i ∈ writersOfS := by exact of_decide_eq_true rfl) :
    CpuKept i s.cpu (pushWord w s).cpu :=
  (push (hiByte w) s h).trans (push (loByte w) _ h)

/-! ## The shapes of instructions -/

variable {m : Mode} {s t : State}

theorem imm {b : Byte} {f : Cpu → Byte → Cpu} (hf : ∀ c v, CpuKept i c (f c v)) (h : immInstr b f s = .next t) :
    CpuKept i s.cpu t.cpu := by
  cases h; exact hf _ _

theorem reg {f : Cpu → Cpu} (hf : ∀ c, CpuKept i c (f c)) (h : cpuInstr f s = .next t) : CpuKept i s.cpu t.cpu := by
  cases h; exact hf _

theorem read {f : Cpu → Byte → Cpu} (hf : ∀ c v, CpuKept i c (f c v)) (h : readInstr m f s = .next t) :
    CpuKept i s.cpu t.cpu := by
  obtain ⟨v, u, hr, rfl⟩ := readInstr_eq_next.1 h
  rw [← memRead_cpu hr]
  exact hf u.cpu v

theorem store {v : Cpu → Byte} (h : storeInstr m v s = .next t) : CpuKept i s.cpu t.cpu := by
  rw [memWrite_cpu (storeInstr_eq_next.1 h)]
  exact refl _

/-- A read-modify-write keeps what setting its carry and then N and Z of its result keeps. -/
theorem modify {f : Cpu → Byte → Modified} (hc : ∀ c v, CpuKept i c (c.withCarry (f c v)))
    (h : modifyInstr m f s = .next t) (hN : mnemonicOf i ∈ flagWriters .n := by exact of_decide_eq_true rfl) :
    CpuKept i s.cpu t.cpu := by
  obtain ⟨v, u, w, hr, hw, rfl⟩ := modifyInstr_eq_next.1 h
  rw [← memRead_cpu hr, State.withCpu_cpu, memWrite_cpu hw, State.withCpu_cpu]
  exact (hc u.cpu v).trans (setNZ _ _ hN)

theorem shiftAcc {f : Cpu → Byte → Modified} (hacc : onAccumulator i) (h : accInstr f s = .next t)
    (hC : mnemonicOf i ∈ flagWriters .c := by exact of_decide_eq_true rfl)
    (hN : mnemonicOf i ∈ flagWriters .n := by exact of_decide_eq_true rfl) : CpuKept i s.cpu t.cpu := by
  cases h
  exact ((setC s.cpu _ hC).trans (setAcc _ _ hacc)).trans (setNZ _ _ hN)

theorem branch (cond : Cpu → Bool) {b : Byte} (h : branchInstr cond b s = .next t)
    (hPc : mnemonicOf i ∈ writersOfPc := by exact of_decide_eq_true rfl) : CpuKept i s.cpu t.cpu := by
  cases h
  split
  · exact setPc s.cpu _ hPc
  · exact refl _

end CpuKept

/-- Each instruction writes the fields of the CPU that the tables of R20, R21 and R26 give its mnemonic, and PC where it is a
control transfer; the default arguments look the mnemonic up. -/
theorem exec_cpuKept {i : Instr} {s t : State} (h : exec i s = .next t) : CpuKept i s.cpu t.cpu := by
  cases i with
  | ldaImm => exact .imm (fun c v => .loadA c v) h
  | ldaZp | ldaZpX | ldaAbs | ldaAbsX | ldaAbsY | ldaIndX | ldaIndY => exact .read (fun c v => .loadA c v) h
  | ldxImm => exact .imm (fun c v => .loadX c v) h
  | ldxZp | ldxZpY | ldxAbs | ldxAbsY => exact .read (fun c v => .loadX c v) h
  | ldyImm => exact .imm (fun c v => .loadY c v) h
  | ldyZp | ldyZpX | ldyAbs | ldyAbsX => exact .read (fun c v => .loadY c v) h
  | staZp | staZpX | staAbs | staAbsX | staAbsY | staIndX | staIndY => exact .store h
  | stxZp | stxZpY | stxAbs => exact .store h
  | styZp | styZpX | styAbs => exact .store h
  | tax | tsx | inx | dex => exact .reg (fun c => .loadX c _) h
  | tay | iny | dey => exact .reg (fun c => .loadY c _) h
  | txa | tya => exact .reg (fun c => .loadA c _) h
  | txs => exact .reg (fun c => .setS c _) h
  | adcImm => exact .imm (fun c v => .adc c v) h
  | adcZp | adcZpX | adcAbs | adcAbsX | adcAbsY | adcIndX | adcIndY => exact .read (fun c v => .adc c v) h
  | sbcImm => exact .imm (fun c v => .adc c (~~~v)) h
  | sbcZp | sbcZpX | sbcAbs | sbcAbsX | sbcAbsY | sbcIndX | sbcIndY => exact .read (fun c v => .adc c (~~~v)) h
  | andImm => exact .imm (fun c v => .loadA c (c.a &&& v)) h
  | andZp | andZpX | andAbs | andAbsX | andAbsY | andIndX | andIndY => exact .read (fun c v => .loadA c (c.a &&& v)) h
  | oraImm => exact .imm (fun c v => .loadA c (c.a ||| v)) h
  | oraZp | oraZpX | oraAbs | oraAbsX | oraAbsY | oraIndX | oraIndY => exact .read (fun c v => .loadA c (c.a ||| v)) h
  | eorImm => exact .imm (fun c v => .loadA c (c.a ^^^ v)) h
  | eorZp | eorZpX | eorAbs | eorAbsX | eorAbsY | eorIndX | eorIndY => exact .read (fun c v => .loadA c (c.a ^^^ v)) h
  | cmpImm => exact .imm (fun c v => .compare c c.a v) h
  | cmpZp | cmpZpX | cmpAbs | cmpAbsX | cmpAbsY | cmpIndX | cmpIndY => exact .read (fun c v => .compare c c.a v) h
  | cpxImm => exact .imm (fun c v => .compare c c.x v) h
  | cpxZp | cpxAbs => exact .read (fun c v => .compare c c.x v) h
  | cpyImm => exact .imm (fun c v => .compare c c.y v) h
  | cpyZp | cpyAbs => exact .read (fun c v => .compare c c.y v) h
  | bitZp | bitAbs => exact .read (fun c v => .bit c v) h
  | incZp | incZpX | incAbs | incAbsX => exact .modify (fun c _ => .refl c) h
  | decZp | decZpX | decAbs | decAbsX => exact .modify (fun c _ => .refl c) h
  | aslZp | aslZpX | aslAbs | aslAbsX => exact .modify (fun c _ => .setC c _) h
  | lsrZp | lsrZpX | lsrAbs | lsrAbsX => exact .modify (fun c _ => .setC c _) h
  | rolZp | rolZpX | rolAbs | rolAbsX => exact .modify (fun c _ => .setC c _) h
  | rorZp | rorZpX | rorAbs | rorAbsX => exact .modify (fun c _ => .setC c _) h
  | aslAcc => exact .shiftAcc (.inl rfl) h
  | lsrAcc => exact .shiftAcc (.inr (.inl rfl)) h
  | rolAcc => exact .shiftAcc (.inr (.inr (.inl rfl))) h
  | rorAcc => exact .shiftAcc (.inr (.inr (.inr rfl))) h
  | bccRel => exact .branch (fun c => !c.c) h
  | bcsRel => exact .branch (fun c => c.c) h
  | beqRel => exact .branch (fun c => c.z) h
  | bneRel => exact .branch (fun c => !c.z) h
  | bmiRel => exact .branch (fun c => c.n) h
  | bplRel => exact .branch (fun c => !c.n) h
  | bvcRel => exact .branch (fun c => !c.v) h
  | bvsRel => exact .branch (fun c => c.v) h
  | jmpAbs w => cases h; exact .setPc s.cpu w
  | jmpInd w =>
    obtain ⟨lo, u, hi, v, hr, hr', rfl⟩ := execJmpInd_eq_next.1 h
    rw [← memRead_cpu hr, ← memRead_cpu hr']
    exact .setPc v.cpu _
  | jsrAbs w =>
    cases h
    exact (CpuKept.pushWord (s.cpu.pc - 1) s).trans (.setPc _ w)
  | rts => cases h; exact (CpuKept.pullWord s).trans (.setPc _ _)
  | brk => cases h; exact { CpuKept.setPc s.cpu (s.cpu.pc + 1) with brk := fun hb => absurd rfl hb }
  | rti =>
    cases h
    have status : CpuKept .rti (pull s).2.cpu ((pull s).2.cpu.setStatus (pull s).1) :=
      .setStatus _ _ (by rintro (_ | _) <;> exact of_decide_eq_true rfl)
    exact (((CpuKept.pull s).trans status).trans (.pullWord ((pull s).2.withCpu _))).trans (.setPc _ _)
  | pha => cases h; exact .push _ s
  | php => cases h; exact .push _ s
  | pla => cases h; exact (CpuKept.pull s).trans (.loadA _ _)
  | plp =>
    cases h
    refine (CpuKept.pull s).trans (.setStatus _ _ ?_)
    rintro (_ | _) <;> exact of_decide_eq_true rfl
  | clc | sec => exact .reg (fun c => .setC c _) h
  | cli | sei => exact .reg (fun c => .setI c _) h
  | cld | sed => exact .reg (fun c => .setD c _) h
  | clv => exact .reg (fun c => .setV c _) h
  | nop => exact .reg (fun c => .refl c) h

/-- Settles O26: every instruction is a chain of writes that the tables allow. -/
theorem cpuFrame : Obligations.CpuFrame := by
  unfold Obligations.CpuFrame
  intro i s t h
  obtain ⟨hflag, ha, hx, hy, hs, hpc, hbrk⟩ := exec_cpuKept h
  exact ⟨hflag, ha, hx, hy, hs, hpc, hbrk⟩

end Sys2Proof.Machine
end

section
/-! SUPPORT. The sprite-pixel buffer (R220): painting lays pixels over a place, so the place shows the first opaque one in the
order of the sprites; and O43. -/

namespace Sys2Proof.Machine

/-! ## Laying pixels over a place -/

/-- `f` lays the pixel `v` over the place at row `y`, column `x`: a transparent `v` leaves what is there. -/
def Lays (f : Grid (Option SpritePixel) → Grid (Option SpritePixel)) (y x : Nat) (v : Option SpritePixel) : Prop :=
  ∀ buf, Grid.get none (f buf) y x = v.or (Grid.get none buf y x)

/-- Of the pixels that a left fold lays, the last opaque one shows. -/
theorem Lays.foldl {f : Grid (Option SpritePixel) → Nat → Grid (Option SpritePixel)} {y x : Nat}
    {v : Nat → Option SpritePixel} (h : ∀ a, Lays (fun b => f b a) y x (v a)) (l : List Nat) :
    Lays (fun b => l.foldl f b) y x (l.reverse.findSome? v) := by
  intro buf
  induction l generalizing buf with
  | nil => rfl
  | cons a l ih =>
    have first : Grid.get none (f buf a) y x = (v a).or (Grid.get none buf y x) := h a buf
    refine (ih (f buf a)).trans ?_
    rw [first, List.reverse_cons, List.findSome?_append, Option.or_assoc, List.findSome?_singleton]

/-- Of the pixels that a right fold lays, the first opaque one shows. -/
theorem get_foldr_of_lays {f : Nat → Grid (Option SpritePixel) → Grid (Option SpritePixel)} {y x : Nat}
    {v : Nat → Option SpritePixel} (h : ∀ a, Lays (f a) y x (v a)) (l : List Nat) :
    Grid.get none (l.foldr f []) y x = l.findSome? v := by
  induction l with
  | nil => rfl
  | cons a l ih =>
    rw [List.foldr_cons, h a, ih, List.findSome?_cons]
    cases v a <;> rfl

/-- Where any two hits give the same, the order of the search is of no account. -/
theorem findSome?_eq_some_of_unique {α β : Type} {v : α → Option β} {l : List α} {q : β}
    (unique : ∀ a a' p p', v a = some p → v a' = some p' → p = p') : l.findSome? v = some q ↔ ∃ a ∈ l, v a = some q := by
  refine ⟨List.exists_of_findSome?_eq_some, fun ⟨a, ha, hq⟩ => ?_⟩
  cases hf : l.findSome? v with
  | none => exact absurd (List.findSome?_eq_none_iff.1 hf a ha) (by simp [hq])
  | some p =>
    obtain ⟨b, -, hp⟩ := List.exists_of_findSome?_eq_some hf
    rw [unique b a p q hp hq]

/-- The first hit among the numbers below `n` is that of the lowest. -/
theorem findSome?_range_eq_some {β : Type} {v : Nat → Option β} {n : Nat} {q : β} :
    (List.range n).findSome? v = some q ↔ ∃ i < n, v i = some q ∧ ∀ j < i, v j = none := by
  induction n with
  | zero => simp
  | succ n ih =>
    rw [List.range_succ, List.findSome?_append, Option.or_eq_some_iff, ih, List.findSome?_eq_none_iff]
    constructor
    · rintro (⟨i, hi, hq⟩ | ⟨hn, hq⟩)
      · exact ⟨i, by omega, hq⟩
      · exact ⟨n, by omega, by simpa using hq, fun j hj => hn j (List.mem_range.2 hj)⟩
    · rintro ⟨i, hi, hq, hn⟩
      by_cases h : i < n
      · exact .inl ⟨i, h, hq, hn⟩
      · obtain rfl : i = n := by omega
        exact .inr ⟨fun j hj => hn j (List.mem_range.1 hj), by simpa using hq⟩

/-! ## What a sprite lays over a place -/

/-- The opaque entry of a pattern value `pix` under the sprite's third OAM byte `attrs` (R38, R220). -/
def spriteEntry (attrs : Byte) (isZero : Bool) (pix : BitVec 2) : SpritePixel :=
  ⟨1#1 ++ attrs.extractLsb 1 0 ++ pix, attrs.getLsbD 5, isZero⟩

/-- The height of a sprite (R29, R220). -/
def spriteHeight (s : State) : Nat := if s.ppu.tallSprites then 16 else 8

/-- The pattern address of row `r` of sprite `i`, its vertical flip applied (R220). -/
def spriteAddr (s : State) (i h r : Nat) : Nat :=
  spriteRowAddr s.ppu (s.ppu.oam.read (4 * i + 1)) (if (s.ppu.oam.read (4 * i + 2)).getLsbD 7 then h - 1 - r else r)

/-- What column `c` of a sprite row lays over a place. -/
def columnPixel (attrs xs hi lo : Byte) (isZero : Bool) (sy y x c : Nat) : Option SpritePixel :=
  let pix := patternPixel hi lo (if attrs.getLsbD 6 then c else 7 - c)
  if y = sy ∧ x = xs.toNat + c ∧ x ≤ 255 ∧ pix ≠ 0 then some (spriteEntry attrs isZero pix) else none

/-- What row `r` of sprite `i`, of height `h`, lays over a place. -/
def rowPixel (s : State) (i h y x r : Nat) : Option SpritePixel :=
  let sy := (s.ppu.oam.read (4 * i)).toNat + 1 + r
  if sy > 239 then none
  else
    (List.range 8).reverse.findSome? (columnPixel (s.ppu.oam.read (4 * i + 2)) (s.ppu.oam.read (4 * i + 3))
      (readChr s (spriteAddr s i h r + 8)) (readChr s (spriteAddr s i h r)) (i == 0) sy y x)

/-- What sprite `i` lays over a place. -/
def spritePixel (s : State) (y x i : Nat) : Option SpritePixel :=
  (List.range (spriteHeight s)).reverse.findSome? (rowPixel s i (spriteHeight s) y x)

theorem paintSpriteColumn_lays (attrs xs hi lo : Byte) (isZero : Bool) (sy y x c : Nat) :
    Lays (paintSpriteColumn attrs xs hi lo isZero sy c) y x (columnPixel attrs xs hi lo isZero sy y x c) := by
  intro buf
  unfold paintSpriteColumn columnPixel
  dsimp only
  generalize patternPixel hi lo (if attrs.getLsbD 6 then c else 7 - c) = pix
  split
  case isTrue off =>
    rw [if_neg (by rintro ⟨-, hx, hle, hpix⟩; exact off.elim (by omega) hpix)]
    rfl
  case isFalse on =>
    obtain ⟨hle, hpix⟩ := not_or.1 on
    rw [Grid.get_set]
    by_cases h : y = sy ∧ x = xs.toNat + c
    · rw [if_pos h, if_pos ⟨h.1, h.2, by omega, hpix⟩]; rfl
    · rw [if_neg h, if_neg (fun h' => h ⟨h'.1, h'.2.1⟩)]; rfl

theorem paintSpriteRow_lays (s : State) (i h y x r : Nat) : Lays (paintSpriteRow s i h r) y x (rowPixel s i h y x r) := by
  intro buf
  unfold paintSpriteRow rowPixel
  dsimp only
  split
  · rfl
  · exact Lays.foldl (fun c => paintSpriteColumn_lays _ _ _ _ _ _ y x c) (List.range 8) buf

theorem paintSprite_lays (s : State) (y x i : Nat) : Lays (paintSprite s i) y x (spritePixel s y x i) :=
  Lays.foldl (fun r => paintSpriteRow_lays s i (spriteHeight s) y x r) (List.range (spriteHeight s))

theorem get_computeSprites (s : State) (y x : Nat) :
    Grid.get none (computeSprites s) y x = (List.range 64).findSome? (spritePixel s y x) :=
  get_foldr_of_lays (paintSprite_lays s y x) _

/-! ## When it is opaque -/

theorem columnPixel_eq_some {attrs xs hi lo : Byte} {isZero : Bool} {sy y x c : Nat} {q : SpritePixel} :
    columnPixel attrs xs hi lo isZero sy y x c = some q ↔
      (y = sy ∧ x = xs.toNat + c ∧ x ≤ 255 ∧ patternPixel hi lo (if attrs.getLsbD 6 then c else 7 - c) ≠ 0) ∧
      q = spriteEntry attrs isZero (patternPixel hi lo (if attrs.getLsbD 6 then c else 7 - c)) := by
  unfold columnPixel
  rw [Option.ite_none_right_eq_some, Option.some.injEq, eq_comm (a := q)]

/-- The pattern value of sprite `i` at its row `r` and column `c`, its flips applied (R220). -/
def spritePattern (s : State) (i r c : Nat) : BitVec 2 :=
  patternPixel (readChr s (spriteAddr s i (spriteHeight s) r + 8)) (readChr s (spriteAddr s i (spriteHeight s) r))
    (if (s.ppu.oam.read (4 * i + 2)).getLsbD 6 then c else 7 - c)

theorem rowPixel_eq_some {s : State} {i y x r : Nat} {q : SpritePixel} :
    rowPixel s i (spriteHeight s) y x r = some q ↔
      y = (s.ppu.oam.read (4 * i)).toNat + 1 + r ∧ y ≤ 239 ∧
      ∃ c < 8, x = (s.ppu.oam.read (4 * i + 3)).toNat + c ∧ x ≤ 255 ∧ spritePattern s i r c ≠ 0 ∧
        q = spriteEntry (s.ppu.oam.read (4 * i + 2)) (i == 0) (spritePattern s i r c) := by
  unfold rowPixel
  dsimp only
  split
  case isTrue off =>
    refine ⟨fun h => (nomatch h), fun ⟨hy, hle, _⟩ => ?_⟩
    omega
  case isFalse on =>
    rw [findSome?_eq_some_of_unique]
    · simp only [columnPixel_eq_some, List.mem_reverse, List.mem_range]
      constructor
      · rintro ⟨c, hc, ⟨hy, hx, hle, hpix⟩, hq⟩
        exact ⟨hy, by omega, c, hc, hx, hle, hpix, hq⟩
      · rintro ⟨hy, -, c, hc, hx, hle, hpix, hq⟩
        exact ⟨c, hc, ⟨hy, hx, hle, hpix⟩, hq⟩
    · intro c c' p p' hp hp'
      obtain ⟨⟨-, hx, -⟩, rfl⟩ := columnPixel_eq_some.1 hp
      obtain ⟨⟨-, hx', -⟩, rfl⟩ := columnPixel_eq_some.1 hp'
      obtain rfl : c = c' := by omega
      rfl

theorem spritePixel_eq_some {s : State} {i y x : Nat} {q : SpritePixel} :
    spritePixel s y x i = some q ↔
      y ≤ 239 ∧ x ≤ 255 ∧ ∃ r c, r < spriteHeight s ∧ c < 8 ∧ y = (s.ppu.oam.read (4 * i)).toNat + 1 + r ∧
        x = (s.ppu.oam.read (4 * i + 3)).toNat + c ∧ spritePattern s i r c ≠ 0 ∧
        q = spriteEntry (s.ppu.oam.read (4 * i + 2)) (i == 0) (spritePattern s i r c) := by
  unfold spritePixel
  rw [findSome?_eq_some_of_unique]
  · simp only [rowPixel_eq_some, List.mem_reverse, List.mem_range]
    constructor
    · rintro ⟨r, hr, hy, hle, c, hc, hx, hxle, hpix, hq⟩
      exact ⟨hle, hxle, r, c, hr, hc, hy, hx, hpix, hq⟩
    · rintro ⟨hle, hxle, r, c, hr, hc, hy, hx, hpix, hq⟩
      exact ⟨r, hr, hy, hle, c, hc, hx, hxle, hpix, hq⟩
  · intro r r' p p' hp hp'
    obtain ⟨hy, -, c, -, hx, -, -, rfl⟩ := rowPixel_eq_some.1 hp
    obtain ⟨hy', -, c', -, hx', -, -, rfl⟩ := rowPixel_eq_some.1 hp'
    obtain rfl : r = r' := by omega
    obtain rfl : c = c' := by omega
    rfl

/-! ## The statement's spelling -/

theorem patternPixel_toNat (hi lo : Byte) (b : Nat) :
    (patternPixel hi lo b).toNat = (if hi.getLsbD b then 2 else 0) + (if lo.getLsbD b then 1 else 0) := by
  unfold patternPixel
  cases hi.getLsbD b <;> cases lo.getLsbD b <;> rfl

theorem and_0xFE_toNat : ∀ b : Byte, (b &&& 0xFE).toNat = b.toNat / 2 * 2 := by decide

theorem spriteRowAddr_eq (p : Ppu) (tile : Byte) (row : Nat) :
    spriteRowAddr p tile row =
      if p.ctrl.getLsbD 5 then tile.toNat % 2 * 0x1000 + tile.toNat / 2 * 32 + (if row < 8 then row else row + 8)
      else (if p.ctrl.getLsbD 3 then 0x1000 else 0) + tile.toNat * 16 + row := by
  unfold spriteRowAddr Ppu.tallSprites Ppu.spriteTable
  rw [and_0xFE_toNat, getLsbD_zero_eq_decide]
  have hbit : (if decide (tile.toNat % 2 = 1) then 0x1000 else 0) = tile.toNat % 2 * 0x1000 := by
    rcases Nat.mod_two_eq_zero_or_one tile.toNat with h | h <;> rw [h] <;> rfl
  rw [hbit, Nat.mul_assoc]

theorem spritePuts_iff {s : State} {i y x pix : Nat} :
    SpritePuts s i y x pix ↔
      ∃ r c, r < spriteHeight s ∧ c < 8 ∧ y = (s.ppu.oam.read (4 * i)).toNat + 1 + r ∧
        x = (s.ppu.oam.read (4 * i + 3)).toNat + c ∧ pix = (spritePattern s i r c).toNat := by
  refine exists_congr fun r => exists_congr fun c => ?_
  rw [spritePattern, patternPixel_toNat, spriteAddr, spriteRowAddr_eq]
  rfl

theorem spriteEntry_index_toNat (attrs : Byte) (isZero : Bool) (pix : BitVec 2) :
    (spriteEntry attrs isZero pix).index.toNat = 16 + attrs.toNat % 4 * 4 + pix.toNat := by
  have hp := pix.isLt
  have hx : (attrs.extractLsb 1 0).toNat = attrs.toNat % 4 := by
    rw [BitVec.extractLsb_toNat, Nat.shiftRight_zero]
  have hentry : (spriteEntry attrs isZero pix).index.toNat = (1#1 ++ attrs.extractLsb 1 0 ++ pix).toNat := rfl
  rw [hentry, BitVec.toNat_append, BitVec.toNat_append, hx, ← Nat.shiftLeft_add_eq_or_of_lt (by omega),
    ← Nat.shiftLeft_add_eq_or_of_lt (by omega), BitVec.toNat_ofNat]
  omega

/-- An entry is the one of a pattern value exactly where its three fields are (R38). -/
theorem eq_spriteEntry_iff {q : SpritePixel} {attrs : Byte} {i : Nat} {pix : BitVec 2} :
    q = spriteEntry attrs (i == 0) pix ↔
      q.index.toNat = 16 + attrs.toNat % 4 * 4 + pix.toNat ∧ q.behind = attrs.getLsbD 5 ∧ (q.zero = true ↔ i = 0) := by
  rw [← spriteEntry_index_toNat attrs (i == 0) pix]
  constructor
  · rintro rfl
    exact ⟨rfl, rfl, by simp [spriteEntry]⟩
  · obtain ⟨index, behind, zero⟩ := q
    rintro ⟨hindex, rfl, hzero⟩
    obtain rfl : index = (spriteEntry attrs (i == 0) pix).index := BitVec.eq_of_toNat_eq hindex
    have : zero = (i == 0) := by rw [Bool.eq_iff_iff, hzero, beq_iff_eq]
    rw [this]; rfl

/-- A sprite lays nothing over a place of the screen exactly where every pattern value it puts there is 0. -/
theorem spritePixel_eq_none {s : State} {i y x : Nat} (hy : y ≤ 239) (hx : x ≤ 255) :
    spritePixel s y x i = none ↔ ∀ pix, SpritePuts s i y x pix → pix = 0 := by
  simp only [spritePuts_iff, Option.eq_none_iff_forall_ne_some, ne_eq, spritePixel_eq_some]
  constructor
  · rintro h pix ⟨r, c, hr, hc, hry, hcx, rfl⟩
    refine Classical.byContradiction fun hpix => ?_
    exact h _ ⟨hy, hx, r, c, hr, hc, hry, hcx, fun e => hpix (by rw [e]; rfl), rfl⟩
  · rintro h q ⟨-, -, r, c, hr, hc, hry, hcx, hpix, -⟩
    exact hpix (BitVec.eq_of_toNat_eq (h _ ⟨r, c, hr, hc, hry, hcx, rfl⟩))

theorem spritePixel_eq_some_iff_puts {s : State} {i y x : Nat} {q : SpritePixel} :
    spritePixel s y x i = some q ↔
      y ≤ 239 ∧ x ≤ 255 ∧ ∃ pix, SpritePuts s i y x pix ∧ pix ≠ 0 ∧
        q.index.toNat = 16 + (s.ppu.oam.read (4 * i + 2)).toNat % 4 * 4 + pix ∧
        q.behind = (s.ppu.oam.read (4 * i + 2)).getLsbD 5 ∧ (q.zero = true ↔ i = 0) := by
  simp only [spritePixel_eq_some, spritePuts_iff, eq_spriteEntry_iff]
  refine and_congr_right fun _ => and_congr_right fun _ => ⟨?_, ?_⟩
  · rintro ⟨r, c, hr, hc, hry, hcx, hpix, hq⟩
    exact ⟨_, ⟨r, c, hr, hc, hry, hcx, rfl⟩, fun e => hpix (BitVec.eq_of_toNat_eq e), hq⟩
  · rintro ⟨_, ⟨r, c, hr, hc, hry, hcx, rfl⟩, hpix, hq⟩
    exact ⟨r, c, hr, hc, hry, hcx, fun e => hpix (by rw [e]; rfl), hq⟩

/-- Settles O43: the buffer shows at each place what the first sprite in order lays there. -/
theorem spriteBufferSound : Obligations.SpriteBufferSound := by
  unfold Obligations.SpriteBufferSound
  intro s y x q
  rw [get_computeSprites, findSome?_range_eq_some]
  constructor
  · rintro ⟨i, hi, hq, hbelow⟩
    obtain ⟨hy, hx, pix, hputs, hpix, hfields⟩ := spritePixel_eq_some_iff_puts.1 hq
    exact ⟨hy, hx, i, pix, hi, hputs, hpix, fun j hj => (spritePixel_eq_none hy hx).1 (hbelow j hj), hfields⟩
  · rintro ⟨hy, hx, i, pix, hi, hputs, hpix, hbelow, hfields⟩
    exact ⟨i, hi, spritePixel_eq_some_iff_puts.2 ⟨hy, hx, pix, hputs, hpix, hfields⟩,
      fun j hj => (spritePixel_eq_none hy hx).2 (hbelow j hj)⟩

end Sys2Proof.Machine
end

section
/-! SUPPORT. The windows (R69, R326 to R328): only a register write of the mapper moves them, and it checks them; O57. -/

namespace Sys2Proof.Machine

/-- What `WindowsInv` claims of a loaded console, claimed of the state whether one is loaded or not: no operation of a step asks
whether a cartridge is loaded. -/
def WindowsSound (s : State) : Prop :=
  s.win = s.mapper.windows s.cart.prgPages ∧ s.win.Fit s.cart.prgPages s.cart.chrPages

/-- The claim rests on the windows, on those of the registers, and on the numbers of pages. -/
theorem WindowsSound.of_eq {s t : State} (h : WindowsSound s) (hwin : t.win = s.win)
    (hmapper : t.mapper.windows s.cart.prgPages = s.mapper.windows s.cart.prgPages)
    (hprg : t.cart.prgPages = s.cart.prgPages) (hchr : t.cart.chrPages = s.cart.chrPages) : WindowsSound t := by
  obtain ⟨registers, fit⟩ := h
  unfold WindowsSound
  rw [hwin, hprg, hchr, hmapper]
  exact ⟨registers, fit⟩

/-- Mapper 1 recomputes its windows unless only the shift register and its count change, which no window depends on (R332 to
R334). -/
theorem Mmc1.windows_of_keepWindows {r : Mmc1} {m : Mapper} {a : Word} {v : Byte} (h : r.write a v = .keepWindows m)
    (n : Nat) : m.windows n = (Mapper.mapper1 r).windows n := by
  unfold Mmc1.write at h
  split at h
  · cases h
  · dsimp only at h
    split at h
    · split at h <;> cases h
    · cases h; rfl

/-- Mapper 4 recomputes its windows unless no register changes (R337). -/
theorem Mmc3.eq_of_keepWindows {r : Mmc3} {m : Mapper} {a : Word} {v : Byte} (h : r.write a v = .keepWindows m) :
    m = .mapper4 r := by
  unfold Mmc3.write at h
  split at h
  case h_4 => cases h; rfl
  all_goals cases h

/-- A register write that keeps the windows leaves the registers' windows as they were (R326, R329). -/
theorem Mapper.windows_of_keepWindows {m q : Mapper} {a : Word} {v : Byte} (h : m.write a v = .keepWindows q) (n : Nat) :
    q.windows n = m.windows n := by
  cases m with
  | mapper0 => cases h
  | mapper1 r => exact r.windows_of_keepWindows h n
  | mapper2 => cases h
  | mapper3 => cases h
  | mapper4 r => rw [r.eq_of_keepWindows h]

/-- A register write of the mapper goes on with sound windows only (R327, R328). -/
theorem mapperWrite_windowsSound {a : Word} {v : Byte} {s t : State} (h : mapperWrite a v s = .ok () t)
    (hs : WindowsSound s) : WindowsSound t := by
  rcases mapperWrite_cases h with ⟨m, hm, rfl⟩ | ⟨m, -, fits, rfl⟩
  · exact hs.of_eq rfl (Mapper.windows_of_keepWindows hm _) rfl rfl
  · exact ⟨rfl, Windows.overflow_eq_none.1 fits⟩

/-- A PPU register write moves no window; a byte of CHR-RAM changes, the number of its pages does not. -/
theorem ppuRegWrite_windowsSound {r : Nat} {v : Byte} {s t : State} (h : ppuRegWrite r v s = .ok () t)
    (hs : WindowsSound s) : WindowsSound t := by
  rcases ppuRegWrite_cases h with ⟨p, rfl⟩ | rfl | ⟨u, hw, rfl⟩
  · exact hs
  · exact hs
  · rcases ppuWrite_cases hw with ⟨-, -, rfl⟩ | ⟨-, -, rfl⟩ | ⟨-, rfl⟩
    · exact hs.of_eq rfl rfl rfl (List.length_modify ..)
    · exact hs
    · exact hs

theorem windowsSound_keptByParts : KeptByParts WindowsSound where
  same h hs := hs.of_eq h.win (by rw [h.mapper]) (by rw [h.cart]) (by rw [h.cart])
  read h hs := by rw [(memRead_frame h).1]; exact hs
  ram _ _ hs := hs
  sram _ _ hs := hs
  oam _ _ hs := hs
  ppuReg h hs := ppuRegWrite_windowsSound h hs
  mapper h hs := mapperWrite_windowsSound h hs
  tick {s} hs := by rw [ppuTick_frame s]; exact hs

/-- Settles O57: a console that steps is loaded, so its windows are sound, and every part of the step keeps them so. -/
theorem windowsInvariantKept : Obligations.WindowsInvariantKept := by
  unfold Obligations.WindowsInvariantKept
  intro s t hs h _
  obtain ⟨-, loaded, -⟩ := step_eq_next.1 h
  exact windowsSound_keptByParts.step h (hs loaded)

end Sys2Proof.Machine
end

section
/-! SUPPORT. The bus at every address (R61 to R70): which handler answers a read and a write, what memory then holds; O29, O30
and O31. -/

namespace Sys2Proof.Machine

/-! ## Which handler answers -/

theorem memRead_workRam {a : Word} (h : regionOf a = .workRam) (s : State) :
    memRead a s = .ok (s.ram.read (ramPlace a)) s := by rw [memRead, h]

/-- A read of a PPU register, by its offset in its mirror (R65, R201). -/
theorem memRead_ppuRegs {a : Word} (h : 0x2000 ≤ a.toNat) (h' : a.toNat < 0x4000) (s : State) :
    memRead a s = answered (ppuRegRead (a.toNat % 8) s) := by rw [memRead, regionOf_ppuRegs h h']

theorem memRead_sram {a : Word} (h : regionOf a = .sram) (s : State) :
    memRead a s = .ok (s.sram.read (sramPlace a)) s := by rw [memRead, h]

theorem memWrite_workRam {a : Word} (h : regionOf a = .workRam) (v : Byte) (s : State) :
    memWrite a v s = .ok () { s with ram := s.ram.write (ramPlace a) v } := by rw [memWrite, h]

/-- A write of a PPU register, by its offset in its mirror (R65, R201). -/
theorem memWrite_ppuRegs {a : Word} (h : 0x2000 ≤ a.toNat) (h' : a.toNat < 0x4000) (v : Byte) (s : State) :
    memWrite a v s = ppuRegWrite (a.toNat % 8) v s := by rw [memWrite, regionOf_ppuRegs h h']

theorem memWrite_unmapped {a : Word} (h : regionOf a = .unmapped) (v : Byte) (s : State) :
    memWrite a v s = raise (.busUnmappedWrite a v) s := by rw [memWrite, h]

theorem memWrite_sram {a : Word} (h : regionOf a = .sram) (v : Byte) (s : State) :
    memWrite a v s = .ok () { s with sram := s.sram.write (sramPlace a) v } := by rw [memWrite, h]

/-! ## What it answers -/

/-- The registers of the PPU that cannot be read answer with an open-bus byte (R203). -/
theorem ppuRegRead_writeOnly {r : Nat} (h2 : r ≠ 2) (h4 : r ≠ 4) (h7 : r ≠ 7) (s : State) : ppuRegRead r s = draw s := by
  unfold ppuRegRead
  split
  case h_4 => rfl
  all_goals contradiction

/-- The device registers below 0x4015 answer with an open-bus byte (R66). -/
theorem ioRead_writeOnly {r : Nat} (h : r ≤ 0x14) (s : State) : ioRead r s = draw s := by
  unfold ioRead
  split
  case h_4 => rfl
  all_goals omega

theorem pageByte_of_getElem? {pages : List Memory} {k : Nat} {page : Memory} (h : pages[k]? = some page) (offset : Nat) :
    pageByte pages k offset = page.read offset := by rw [pageByte, h]

/-- A PRG read is a read of the page that the address's 8 KiB window names (R69). -/
theorem prgRead_eq_page {s : State} {a : Word} {k : Nat} {page : Memory} (ha : 0x8000 ≤ a.toNat)
    (hk : s.win.prg[(a.toNat - 0x8000) / 0x2000]? = some k) (hpage : s.cart.prg[k]? = some page) :
    prgRead s a = page.read (a.toNat % 0x2000) := by
  obtain ⟨_, rfl⟩ := Vector.getElem?_eq_some_iff.1 hk
  have hwin : prgPageOf s a = s.win.prg[(a.toNat - 0x8000) / 0x2000] := by
    unfold prgPageOf
    congr 1
    omega
  rw [prgRead, hwin, pageByte_of_getElem? hpage]

/-- Settles O29: the handler of each range, then what its registers answer. -/
theorem busReads : Obligations.BusReads := by
  unfold Obligations.BusReads
  intro a s
  refine ⟨fun h => memRead_workRam (regionOf_workRam (by omega)) s, fun h h' => ?ppuRegs, fun h h' => ?io,
    fun h h' => memRead_unmapped (regionOf_unmapped h (by omega)) s,
    fun h h' => memRead_sram (regionOf_sram h (by omega)) s,
    fun h => ⟨_, memRead_prg (regionOf_prg h) s, rfl, fun k page hk hpage => prgRead_eq_page h hk hpage⟩⟩
  case ppuRegs =>
    rw [memRead_ppuRegs h (by omega)]
    exact ⟨rfl, fun h4 => by rw [h4]; rfl, fun h2 h4 h7 => by rw [ppuRegRead_writeOnly h2 h4 h7]; rfl⟩
  case io =>
    rw [memRead_io (r := a.toNat - 0x4000) (by omega) (by omega)]
    exact ⟨rfl, fun h14 => by rw [ioRead_writeOnly (by omega)]; rfl⟩

/-- Settles O30: the handler of each range. -/
theorem busWrites : Obligations.BusWrites := by
  unfold Obligations.BusWrites
  intro a v s
  exact ⟨fun h => memWrite_workRam (regionOf_workRam (by omega)) v s,
    fun h h' => memWrite_ppuRegs h (by omega) v s,
    fun h h' => memWrite_io (r := a.toNat - 0x4000) (by omega) (by omega) v s,
    fun h h' => memWrite_unmapped (regionOf_unmapped h (by omega)) v s,
    fun h h' => memWrite_sram (regionOf_sram h (by omega)) v s,
    fun h => memWrite_prg h v s⟩

/-! ## Read after write (R64, R68) -/

/-- A write to work RAM is read back at every address of the byte, its mirrors included. -/
theorem memRead_writeRam {a b : Word} {v : Byte} {s : State} (hb : regionOf b = .workRam) (h : ramPlace a = ramPlace b) :
    memRead b { s with ram := s.ram.write (ramPlace a) v } = .ok v { s with ram := s.ram.write (ramPlace a) v } := by
  rw [memRead_workRam hb, ← h]
  exact congrArg (Res.ok · _) (Memory.read_write_self _ _ v)

theorem memRead_writeSram {a : Word} {v : Byte} {s : State} (ha : regionOf a = .sram) :
    memRead a { s with sram := s.sram.write (sramPlace a) v } = .ok v { s with sram := s.sram.write (sramPlace a) v } := by
  rw [memRead_sram ha]
  exact congrArg (Res.ok · _) (Memory.read_write_self _ _ v)

/-- Settles O31: in each of the two memories, the write, the read of the byte written and the bytes left alone; then the mirrors
of a work RAM byte, which are one place. -/
theorem readAfterWrite : Obligations.ReadAfterWrite := by
  unfold Obligations.ReadAfterWrite
  refine ⟨fun a v s ha => ?write, fun a b s ha hb hplace => ?mirrors⟩
  case write =>
    rcases ha with ha | ha
    · refine ⟨_, memWrite_workRam ha v s, fun b hab => ?_, fun b hab => byteAt_writeRam v ha hab⟩
      rcases hab with ⟨-, hb, hplace⟩ | ⟨hsram, -⟩
      · exact memRead_writeRam hb hplace
      · exact absurd (ha.symm.trans hsram) (by decide)
    · refine ⟨_, memWrite_sram ha v s, fun b hab => ?_, fun b hab => byteAt_writeSram v ha hab⟩
      rcases hab with ⟨hram, -, -⟩ | ⟨-, rfl⟩
      · exact absurd (ha.symm.trans hram) (by decide)
      · exact memRead_writeSram ha
  case mirrors =>
    have ra : regionOf a = .workRam := regionOf_workRam (by omega)
    have rb : regionOf b = .workRam := regionOf_workRam (by omega)
    refine ⟨.inl ⟨ra, rb, hplace⟩, ?_⟩
    rw [State.byteAt, State.byteAt, ra, rb, ramPlace, hplace]; rfl

end Sys2Proof.Machine
end

section
/-! SUPPORT. What an instruction that stores and pushes nothing can do (R78, R96): it changes the CPU, and reads; and O27. -/

namespace Sys2Proof.Machine

/-! ## One read after another -/

theorem ReadFrame.trans {s t u : State} (h : ReadFrame s t) (h' : ReadFrame t u) : ReadFrame s u := by
  obtain ⟨frame, latch, vbl⟩ := h
  obtain ⟨frame', latch', vbl'⟩ := h'
  refine ⟨by rw [frame']; rw [frame], ?_, fun hu => vbl (vbl' hu)⟩
  rcases latch' with e' | ⟨pending', taken'⟩
  · rw [e']; exact latch
  · rcases latch with e | ⟨-, taken⟩
    · exact .inr ⟨e ▸ pending', taken'⟩
    · exact absurd (taken.symm.trans pending') (by decide)

/-- What a read changes does not depend on the CPU. -/
theorem ReadFrame.withCpu {s t : State} (h : ReadFrame s t) (c : Cpu) : ReadFrame (s.withCpu c) (t.withCpu c) := by
  obtain ⟨frame, latch, vbl⟩ := h
  refine ⟨?_, latch, vbl⟩
  rw [frame]; rfl

theorem ReadFrame.byteAt {s t : State} (h : ReadFrame s t) (a : Word) : t.byteAt a = s.byteAt a := by rw [h.1]; rfl

/-! ## Which instructions only read -/

/-- Without a destination in memory and without a push, an instruction changes the CPU alone, is of the read class, reads a
pointer for JMP, or is BRK. -/
theorem exec_shape_of_storesNothing {i : Instr} (hd : destinationOf i = none) (hp : ¬ pushes i) :
    OnCpu i ∨ OnRead i ∨ (∃ w, i = .jmpInd w) ∨ i = .brk := by
  cases i with
  | staZp | staZpX | staAbs | staAbsX | staAbsY | staIndX | staIndY | stxZp | stxZpY | stxAbs | styZp | styZpX | styAbs
  | incZp | incZpX | incAbs | incAbsX | decZp | decZpX | decAbs | decAbsX | aslZp | aslZpX | aslAbs | aslAbsX
  | lsrZp | lsrZpX | lsrAbs | lsrAbsX | rolZp | rolZpX | rolAbs | rolAbsX | rorZp | rorZpX | rorAbs | rorAbsX => cases hd
  | pha | php | jsrAbs => exact absurd (by simp [pushes, mnemonicOf]) hp
  | jmpInd w => exact .inr (.inr (.inl ⟨w, rfl⟩))
  | brk => exact .inr (.inr (.inr rfl))
  | ldaImm | ldxImm | ldyImm | adcImm | sbcImm | andImm | oraImm | eorImm | cmpImm | cpxImm | cpyImm
  | tax | tay | txa | tya | tsx | txs | inx | iny | dex | dey | clc | sec | cli | sei | cld | sed | clv | nop
  | aslAcc | lsrAcc | rolAcc | rorAcc | jmpAbs | rts | rti | pla | plp => exact .inl ⟨_, fun _ => rfl, fun _ => rfl⟩
  | bccRel | bcsRel | beqRel | bneRel | bmiRel | bplRel | bvcRel | bvsRel =>
    exact .inl (.branch _ _ fun _ => by rw [exec]; rfl)
  | _ => exact .inr (.inl ⟨_, _, fun _ => rfl, fun _ _ => rfl⟩)

/-! ## What they leave alone -/

/-- Such an instruction changes the CPU and what reads change; BRK, which reads nothing, also offers its interrupt (R172). -/
theorem exec_storesNothing_frame {i : Instr} {s t : State} (hd : destinationOf i = none) (hp : ¬ pushes i)
    (h : exec i s = .next t) : ReadFrame (s.withCpu t.cpu) t ∨ (i = .brk ∧ t = { s with cpu := t.cpu, latch := t.latch }) := by
  rcases exec_shape_of_storesNothing hd hp with ⟨g, e, -⟩ | ⟨m, f, e, -⟩ | ⟨w, rfl⟩ | rfl
  · rw [e] at h; cases h; exact .inl (ReadFrame.refl _)
  · rw [e, readInstr_eq_next] at h
    obtain ⟨v, u, hr, rfl⟩ := h
    exact .inl ((memRead_frame hr).withCpu _)
  · obtain ⟨lo, u, hi, v, hlo, hhi, rfl⟩ := execJmpInd_eq_next.1 h
    exact .inl (((memRead_frame hlo).trans (memRead_frame hhi)).withCpu _)
  · cases h; exact .inr ⟨rfl, rfl⟩

/-- Settles O27: such an instruction is a chain of bus reads and changes of the CPU, or BRK. -/
theorem nonStoringFrame : Obligations.NonStoringFrame := by
  unfold Obligations.NonStoringFrame
  intro i s t hd hp h
  rcases exec_storesNothing_frame hd hp h with reads | ⟨rfl, offers⟩
  · exact ⟨reads.byteAt, reads.1, fun _ => reads.2.1⟩
  · exact ⟨byteAt_congr (by rw [offers]) (by rw [offers]) (by rw [offers]) (by rw [offers]), by rw [offers],
      fun hne => absurd rfl hne⟩

end Sys2Proof.Machine
end

section
/-! SUPPORT. The PPU's memory and its data port (R71 to R74, R211, R213, R325): mirroring, the palette's mirrors, the CHR windows,
and a read and a write of 0x2007 in each range; O38. -/

namespace Sys2Proof.Machine

/-! ## Mirroring, palette and CHR addressing -/

/-- Mapper 1's mode by the low two bits of its control register (R334). -/
theorem Mmc1.mirroring_eq (r : Mmc1) :
    r.mirroring =
      if r.control.toNat % 4 = 0 then .singleLower else if r.control.toNat % 4 = 1 then .singleUpper
      else if r.control.toNat % 4 = 2 then .vertical else .horizontal := by
  have mode : (r.control.extractLsb 1 0).toNat = r.control.toNat % 4 := by
    rw [BitVec.extractLsb_toNat, Nat.shiftRight_zero]
  unfold Mmc1.mirroring
  rw [mode]
  split
  case h_1 h => rw [if_pos h]
  case h_2 h => rw [h]; rfl
  case h_3 h => rw [h]; rfl
  case h_4 h0 h1 h2 => rw [if_neg h0, if_neg h1, if_neg h2]

/-- The nametable byte of an address: its table through the mirroring, and its place in the table (R73). -/
theorem ciramPlace_eq (s : State) (a : Nat) :
    ciramPlace s a = mirrorOf s.mirroring (a % 0x1000 / 0x400) * 0x400 + a % 0x400 := by
  rw [ciramPlace, Nat.mod_mod_of_dvd a (by decide : 0x400 ∣ 0x1000)]

theorem palIndex_eq (a : Nat) : palIndex a = a % 32 - if a % 32 ∈ [0x10, 0x14, 0x18, 0x1C] then 0x10 else 0 := by
  unfold palIndex
  simp only [List.mem_cons, List.not_mem_nil, or_false]
  split <;> rfl

/-- The CHR page of an address is the one that its 1 KiB window names (R72). -/
theorem chrPageOf_eq {s : State} {a k : Nat} (ha : a < 0x2000) (hk : s.win.chr[a / 0x400]? = some k) :
    chrPageOf s a = k := by
  obtain ⟨_, rfl⟩ := Vector.getElem?_eq_some_iff.1 hk
  unfold chrPageOf
  congr 1
  omega

theorem readChr_eq_page {s : State} {a k : Nat} {page : Memory} (ha : a < 0x2000) (hk : s.win.chr[a / 0x400]? = some k)
    (hpage : s.cart.chr[k]? = some page) : readChr s a = page.read (a % 0x400) := by
  rw [readChr, chrPageOf_eq ha hk, pageByte_of_getElem? hpage]

/-- Changing a page that exists is setting it to what the change makes of it. -/
theorem modify_page_eq_set {pages : List Memory} {k : Nat} {page : Memory} (h : pages[k]? = some page)
    (f : Memory → Memory) : pages.modify k f = pages.set k (f page) := by
  have : Inhabited Memory := ⟨page⟩
  rw [List.modify_eq_set, h]; rfl

/-! ## Reads and writes in the PPU's address space, by range (R71 to R74) -/

section
variable {a : PpuAddr} {v : Byte} {s : State}

theorem ppuRead_chr (h : a.toNat < 0x2000) : ppuRead a s = (readChr s a.toNat, s) := if_pos h

theorem ppuRead_nametable (h : 0x2000 ≤ a.toNat) (h' : a.toNat < 0x3F00) : ppuRead a s = (readNametable s a.toNat, s) :=
  (if_neg (by omega)).trans (if_pos h')

theorem ppuRead_palette (h : 0x3F00 ≤ a.toNat) :
    ppuRead a s = ((Config.openBus s.draws).extractLsb 1 0 ++ s.ppu.palEntry a.toNat, (draw s).2) :=
  (if_neg (by omega)).trans (if_neg (by omega))

theorem ppuWrite_chrRam (h : a.toNat < 0x2000) (hram : s.cart.chrIsRam = true) :
    ppuWrite a v s = .ok () { s with cart := { s.cart with
      chr := s.cart.chr.modify (chrPageOf s a.toNat) fun m => m.write (a.toNat % 0x400) v } } :=
  (if_pos h).trans (if_pos hram)

theorem ppuWrite_chrRom (h : a.toNat < 0x2000) (hrom : s.cart.chrIsRam = false) :
    ppuWrite a v s = raise (.chrRomWrite a v) s :=
  (if_pos h).trans (if_neg (Bool.eq_false_iff.1 hrom))

theorem ppuWrite_nametable (h : 0x2000 ≤ a.toNat) (h' : a.toNat < 0x3F00) :
    ppuWrite a v s = .ok () (s.withPpu { s.ppu with ciram := s.ppu.ciram.write (ciramPlace s a.toNat) v }) :=
  (if_neg (by omega)).trans (if_pos h')

theorem ppuWrite_palette (h : 0x3F00 ≤ a.toNat) :
    ppuWrite a v s =
      .ok () (s.withPpu { s.ppu with pal := Table.set 0 s.ppu.pal (palIndex a.toNat) (v.extractLsb 5 0) }) :=
  (if_neg (by omega)).trans (if_neg (by omega))

end

/-! ## The data port (R211, R213) -/

theorem vramPlace_toNat (p : Ppu) : p.vramPlace.toNat = p.v.toNat % 0x4000 := by
  rw [Ppu.vramPlace, BitVec.extractLsb_toNat, Nat.shiftRight_zero]

section
variable {s : State}

/-- A data read below the palette gives the old buffer; the byte at v, read without effect, refills it. -/
theorem readPpuData_buffered {b : Byte} (h : s.ppu.vramPlace.toNat < 0x3F00) (hb : ppuRead s.ppu.vramPlace s = (b, s)) :
    readPpuData s = (s.ppu.buffer, s.withPpu { s.ppu with buffer := b }.advanceV) := by
  rw [readPpuData]
  dsimp only
  rw [if_pos h, hb]

/-- A data read in the palette gives the entry; the nametable byte under it fills the buffer. -/
theorem readPpuData_palette (h : 0x3F00 ≤ s.ppu.vramPlace.toNat) :
    readPpuData s =
      ((Config.openBus s.draws).extractLsb 1 0 ++ s.ppu.palEntry s.ppu.vramPlace.toNat,
        (draw s).2.withPpu { s.ppu with buffer := readNametable s (s.ppu.vramPlace.toNat - 0x1000) }.advanceV) := by
  have under : (s.ppu.vramPlace - 0x1000).toNat = s.ppu.vramPlace.toNat - 0x1000 :=
    BitVec.toNat_sub_of_le (BitVec.le_def.2 (show 0x1000 ≤ _ by omega))
  have := s.ppu.vramPlace.isLt
  rw [readPpuData]
  dsimp only
  rw [if_neg (by omega), ppuRead_palette h, ppuRead_nametable (by omega) (by omega), under]
  rfl

theorem writePpuData_of_ok {v : Byte} {t : State} (h : ppuWrite s.ppu.vramPlace v s = .ok () t) :
    writePpuData v s = .ok () (t.withPpu t.ppu.advanceV) := by rw [writePpuData, h]; rfl

theorem writePpuData_of_stop {v : Byte} {f : Fault} (h : ppuWrite s.ppu.vramPlace v s = .stop f) :
    writePpuData v s = .stop f := by rw [writePpuData, h]; rfl

end

/-- The low six bits of a byte, which a palette entry takes (R37, R74). -/
theorem extractLsb_5_0_eq_ofNat (x : Byte) : x.extractLsb 5 0 = BitVec.ofNat 6 x.toNat := by
  apply BitVec.eq_of_toNat_eq
  rw [BitVec.extractLsb_toNat, Nat.shiftRight_zero, BitVec.toNat_ofNat]

/-- Settles O38: the addressing, then the data port by the range of v. -/
theorem ppuDataPort : Obligations.PpuDataPort := by
  unfold Obligations.PpuDataPort
  refine ⟨fun s => ⟨?header, fun r h => ?mapper1, fun r h => ?mapper4⟩, by decide, palIndex_eq,
    fun s a k page ha hk hpage => readChr_eq_page ha hk hpage, ?port⟩
  case header => rintro (h | ⟨b, h⟩ | ⟨b, h⟩) <;> rw [State.mirroring, h] <;> rfl
  case mapper1 => rw [State.mirroring, h]; exact r.mirroring_eq
  case mapper4 => rw [State.mirroring, h]
  case port =>
    intro a x s p v ha ha' h7 hp hv
    have read : memRead a s = answered (readPpuData s) := by rw [memRead_ppuRegs ha (by omega), h7]; rfl
    have write : memWrite a x s = writePpuData x s := by rw [memWrite_ppuRegs ha (by omega), h7]; rfl
    rw [← vramPlace_toNat] at hp
    rw [read, write]
    subst hp hv
    refine ⟨fun h => ?readChr, fun h h' => ?readNametable, fun h => ?readPalette, fun h hram => ?writeChrRam,
      fun h hrom => ?writeChrRom, fun h h' => ?writeNametable, fun h => ?writePalette⟩
    case readChr => rw [readPpuData_buffered (by omega) (ppuRead_chr h)]; rfl
    case readNametable => rw [readPpuData_buffered h' (ppuRead_nametable h h'), readNametable, ciramPlace_eq]; rfl
    case readPalette =>
      have under : (s.ppu.vramPlace.toNat - 0x1000) % 0x400 = s.ppu.vramPlace.toNat % 0x400 := by omega
      rw [readPpuData_palette h, readNametable, ciramPlace_eq, under]; rfl
    case writeChrRam =>
      refine ⟨s.cart.chr.modify _ _, writePpuData_of_ok (ppuWrite_chrRam h hram), fun k page hk hpage => ?_⟩
      rw [chrPageOf_eq h hk, modify_page_eq_set hpage]
    case writeChrRom => exact ⟨_, rfl, writePpuData_of_stop (ppuWrite_chrRom h hrom)⟩
    case writeNametable => rw [writePpuData_of_ok (ppuWrite_nametable h h'), ciramPlace_eq]; rfl
    case writePalette =>
      rw [writePpuData_of_ok (ppuWrite_palette h), extractLsb_5_0_eq_ofNat]; rfl

end Sys2Proof.Machine
end

section
/-! SUPPORT. From the bytes at PC to the step (R90, R91, R350): what the format of an opcode asks of the decoder and of the
fetch; O5. -/

namespace Sys2Proof

/-! ## The format of an opcode -/

/-- The opcode map gives the opcode the format `shape` (R90, R104). -/
def OpcodeShape (op : Byte) (shape : Shape) : Prop := ∃ row, opcodeRow op = some row ∧ row.shape = shape

theorem opcode_cases (op : Byte) :
    opcodeRow op = none ∨ (∃ i, OpcodeShape op (.f1 i)) ∨ (∃ mk, OpcodeShape op (.f2 mk)) ∨ ∃ mk, OpcodeShape op (.f3 mk) := by
  cases hrow : opcodeRow op with
  | none => exact .inl rfl
  | some row =>
    cases hshape : row.shape with
    | f1 i => exact .inr (.inl ⟨i, row, hrow, hshape⟩)
    | f2 mk => exact .inr (.inr (.inl ⟨mk, row, hrow, hshape⟩))
    | f3 mk => exact .inr (.inr (.inr ⟨mk, row, hrow, hshape⟩))

/-! ## Decoding by format -/

section
variable {op : Byte}

theorem decode_unknown (h : opcodeRow op = none) (rest : List Byte) :
    decode (op :: rest) = .error (.unknownOpcode op) := by simp only [decode, h]

theorem decode_f1 {i : Instr} (h : OpcodeShape op (.f1 i)) (rest : List Byte) : decode (op :: rest) = .ok (i, rest) := by
  obtain ⟨row, hrow, hshape⟩ := h
  simp only [decode, hrow, hshape]

theorem decode_f2 {mk : Byte → Instr} (h : OpcodeShape op (.f2 mk)) :
    decode [op] = .error (.missingOperand op) ∧ ∀ b1 rest, decode (op :: b1 :: rest) = .ok (mk b1, rest) := by
  obtain ⟨row, hrow, hshape⟩ := h
  simp only [decode, hrow, hshape, implies_true, and_self]

theorem decode_f3 {mk : Word → Instr} (h : OpcodeShape op (.f3 mk)) :
    decode [op] = .error (.missingOperand op) ∧ (∀ lo, decode [op, lo] = .error (.missingOperand op)) ∧
    ∀ lo hi rest, decode (op :: lo :: hi :: rest) = .ok (mk (wordOf hi lo), rest) := by
  obtain ⟨row, hrow, hshape⟩ := h
  simp only [decode, hrow, hshape, implies_true, and_self]

end

/-- A byte string that is one whole instruction is an opcode and the operand bytes of its format, and nothing more. -/
theorem decode_whole {bs : List Byte} {i : Instr} (h : decode bs = .ok (i, [])) :
    (∃ op, bs = [op] ∧ OpcodeShape op (.f1 i)) ∨
    (∃ op b1 mk, bs = [op, b1] ∧ OpcodeShape op (.f2 mk) ∧ i = mk b1) ∨
    ∃ op lo hi mk, bs = [op, lo, hi] ∧ OpcodeShape op (.f3 mk) ∧ i = mk (wordOf hi lo) := by
  match bs with
  | [] => cases h
  | op :: rest =>
    rcases opcode_cases op with hu | ⟨j, h1⟩ | ⟨mk, h2⟩ | ⟨mk, h3⟩
    · rw [decode_unknown hu] at h; cases h
    · rw [decode_f1 h1] at h; cases h
      exact .inl ⟨op, rfl, h1⟩
    · match rest with
      | [] => rw [(decode_f2 h2).1] at h; cases h
      | b1 :: rest =>
        rw [(decode_f2 h2).2] at h; cases h
        exact .inr (.inl ⟨op, b1, mk, rfl, h2, rfl⟩)
    · obtain ⟨noOperand, halfOperand, operand⟩ := decode_f3 h3
      match rest with
      | [] => rw [noOperand] at h; cases h
      | [lo] => rw [halfOperand] at h; cases h
      | lo :: hi :: rest =>
        rw [operand] at h; cases h
        exact .inr (.inr ⟨op, lo, hi, mk, rfl, h3, rfl⟩)

end Sys2Proof

namespace Sys2Proof.Machine

/-! ## Fetching by format -/

theorem fetchByte_of_read {s t : State} {b : Byte} (h : memRead s.cpu.pc s = .ok b t) :
    fetchByte s = .ok b (t.setPc (s.cpu.pc + 1)) := by rw [fetchByte, h, Res.ok_bind, memRead_cpu h]

theorem fetchByte_unmapped {s : State} (h : regionOf s.cpu.pc = .unmapped) :
    fetchByte s = raise (.busUnmappedRead s.cpu.pc) s := by rw [fetchByte, memRead_unmapped h]; rfl

theorem fetch_unmapped {s : State} (h : regionOf s.cpu.pc = .unmapped) :
    fetch s = raise (.busUnmappedRead s.cpu.pc) s := by rw [fetch, fetchByte_unmapped h]; rfl

section
variable {s t : State} {op : Byte} (hop : memRead s.cpu.pc s = .ok op t)
include hop

theorem fetch_unknown (h : opcodeRow op = none) :
    fetch s = raise (.unknownOpcode s.cpu.pc op) (t.setPc (s.cpu.pc + 1)) := by
  simp only [fetch, fetchByte_of_read hop, Res.ok_bind, h]

theorem fetch_shape {shape : Shape} (h : OpcodeShape op shape) :
    fetch s = fetchOperands shape (t.setPc (s.cpu.pc + 1)) := by
  obtain ⟨row, hrow, rfl⟩ := h
  simp only [fetch, fetchByte_of_read hop, Res.ok_bind, hrow]

theorem fetch_f1 {i : Instr} (h : OpcodeShape op (.f1 i)) : fetch s = .ok i (t.setPc (s.cpu.pc + 1)) :=
  fetch_shape hop h

/-- Where nothing answers at the first operand byte, an opcode that asks for one stops there (R67, R91). -/
theorem fetch_f2_unmapped {mk : Byte → Instr} (h : OpcodeShape op (.f2 mk)) (hole : regionOf (s.cpu.pc + 1) = .unmapped) :
    fetch s = raise (.busUnmappedRead (s.cpu.pc + 1)) (t.setPc (s.cpu.pc + 1)) := by
  rw [fetch_shape hop h, fetchOperands, fetchByte_unmapped (s := t.setPc (s.cpu.pc + 1)) hole]; rfl

theorem fetch_f3_unmapped {mk : Word → Instr} (h : OpcodeShape op (.f3 mk)) (hole : regionOf (s.cpu.pc + 1) = .unmapped) :
    fetch s = raise (.busUnmappedRead (s.cpu.pc + 1)) (t.setPc (s.cpu.pc + 1)) := by
  rw [fetch_shape hop h, fetchOperands, fetchByte_unmapped (s := t.setPc (s.cpu.pc + 1)) hole]; rfl

end

section
variable {s t u : State} {op b1 : Byte} (hop : memRead s.cpu.pc s = .ok op t)
  (hb1 : memRead (s.cpu.pc + 1) (t.setPc (s.cpu.pc + 1)) = .ok b1 u)
include hb1

theorem fetchByte_operand : fetchByte (t.setPc (s.cpu.pc + 1)) = .ok b1 (u.setPc (s.cpu.pc + 2)) := by
  have e : s.cpu.pc + 2 = s.cpu.pc + 1 + 1 := (BitVec.add_assoc s.cpu.pc 1 1).symm
  rw [e]
  exact fetchByte_of_read hb1

include hop

theorem fetch_f2 {mk : Byte → Instr} (h : OpcodeShape op (.f2 mk)) : fetch s = .ok (mk b1) (u.setPc (s.cpu.pc + 2)) := by
  rw [fetch_shape hop h, fetchOperands, fetchByte_operand hb1]; rfl

/-- Where nothing answers at the high byte of a word operand, the fetch stops after the low byte (R67, R91). -/
theorem fetch_f3_high_unmapped {mk : Word → Instr} (h : OpcodeShape op (.f3 mk))
    (hole : regionOf (s.cpu.pc + 2) = .unmapped) :
    fetch s = raise (.busUnmappedRead (s.cpu.pc + 2)) (u.setPc (s.cpu.pc + 2)) := by
  rw [fetch_shape hop h, fetchOperands, fetchByte_operand hb1, Res.ok_bind,
    fetchByte_unmapped (s := u.setPc (s.cpu.pc + 2)) hole]; rfl

theorem fetch_f3 {mk : Word → Instr} {w : State} {b2 : Byte} (h : OpcodeShape op (.f3 mk))
    (hb2 : memRead (s.cpu.pc + 2) (u.setPc (s.cpu.pc + 2)) = .ok b2 w) :
    fetch s = .ok (mk (wordOf b2 b1)) (w.setPc (s.cpu.pc + 3)) := by
  have e : s.cpu.pc + 3 = s.cpu.pc + 2 + 1 := (BitVec.add_assoc s.cpu.pc 2 1).symm
  rw [fetch_shape hop h, fetchOperands, fetchByte_operand hb1, Res.ok_bind, fetchByte_of_read hb2, e]; rfl

end

/-! ## The step by its fetch -/

section
variable {s t : State} (hf : s.fault = none) (hl : s.loaded = true)
include hf hl

theorem step_of_fetch {i : Instr} (h : fetch (beginStep s) = .ok i t) : step s = runsFetched i t := by
  simp only [step, hf, hl, if_true, runInstruction, h]; rfl

theorem step_of_fetch_raise {r : Fatal} (h : fetch (beginStep s) = raise r t) : step s = stopsWith r t := by
  simp only [step, hf, hl, if_true, runInstruction, h]; rfl

end

/-! ## The step by what the bytes decode to -/

section
variable {s t : State} {op : Byte} (hf : s.fault = none) (hl : s.loaded = true)
  (hop : memRead s.cpu.pc (beginStep s) = .ok op t)
include hf hl hop

theorem step_of_decode_one {i : Instr} (h : decode [op] = .ok (i, [])) :
    step s = runsFetched i (t.setPc (s.cpu.pc + 1)) := by
  rcases decode_whole h with ⟨_, e, h1⟩ | ⟨_, _, _, e, -⟩ | ⟨_, _, _, _, e, -⟩ <;> cases e
  exact step_of_fetch hf hl (fetch_f1 hop h1)

section
variable {u : State} {b1 : Byte} (hb1 : memRead (s.cpu.pc + 1) (t.setPc (s.cpu.pc + 1)) = .ok b1 u)
include hb1

theorem step_of_decode_two {i : Instr} (h : decode [op, b1] = .ok (i, [])) :
    step s = runsFetched i (u.setPc (s.cpu.pc + 2)) := by
  rcases decode_whole h with ⟨_, e, -⟩ | ⟨_, _, mk, e, h2, rfl⟩ | ⟨_, _, _, _, e, -⟩ <;> cases e
  exact step_of_fetch hf hl (fetch_f2 (s := beginStep s) hop hb1 h2)

theorem step_of_decode_three {i : Instr} {w : State} {b2 : Byte}
    (hb2 : memRead (s.cpu.pc + 2) (u.setPc (s.cpu.pc + 2)) = .ok b2 w) (h : decode [op, b1, b2] = .ok (i, [])) :
    step s = runsFetched i (w.setPc (s.cpu.pc + 3)) := by
  rcases decode_whole h with ⟨_, e, -⟩ | ⟨_, _, _, e, -⟩ | ⟨_, _, _, mk, e, h3, rfl⟩ <;> cases e
  exact step_of_fetch hf hl (fetch_f3 (s := beginStep s) hop hb1 h3 hb2)

end
end

/-- Bytes of memory are read without effect, so the bytes of an instruction in memory give a step of that instruction. -/
theorem step_of_bytesAt {s : State} (hf : s.fault = none) (hl : s.loaded = true) {bs : List Byte} {i : Instr}
    (h : decode bs = .ok (i, []))
    (hbytes : ∀ k (hk : k < bs.length), s.byteAt (s.cpu.pc + BitVec.ofNat 16 k) = some bs[k]) :
    step s = runsFetched i ((beginStep s).setPc (s.cpu.pc + BitVec.ofNat 16 bs.length)) := by
  have read : ∀ k (hk : k < bs.length) pc,
      memRead (s.cpu.pc + BitVec.ofNat 16 k) ((beginStep s).setPc pc) = .ok bs[k] ((beginStep s).setPc pc) :=
    fun k hk _ => memRead_of_byteAt (hbytes k hk)
  have first : ∀ hk : 0 < bs.length, memRead s.cpu.pc (beginStep s) = .ok bs[0] (beginStep s) := fun hk => by
    have read := read 0 hk s.cpu.pc
    rwa [BitVec.add_zero] at read
  rcases decode_whole h with ⟨b0, rfl, -⟩ | ⟨b0, b1, mk, rfl, -⟩ | ⟨b0, b1, b2, mk, rfl, -⟩
  · exact step_of_decode_one hf hl (first (Nat.succ_pos _)) h
  · exact step_of_decode_two hf hl (first (Nat.succ_pos _)) (read 1 (Nat.lt_add_one 1) _) h
  · exact step_of_decode_three (w := (beginStep s).setPc (s.cpu.pc + 2)) hf hl (first (Nat.succ_pos _))
      (read 1 (show 1 < 3 by decide) _) (read 2 (Nat.lt_add_one 2) _) h

/-- Settles O5: the bytes in memory, then byte by byte through the bus, with the hole in the map after none, one and two of
them. -/
theorem stepRunsDecodedInstruction : Obligations.StepRunsDecodedInstruction := by
  unfold Obligations.StepRunsDecodedInstruction
  intro s hf hl pc
  refine ⟨fun bs i h hbytes => step_of_bytesAt hf hl h hbytes,
    fun hole => step_of_fetch_raise hf hl (fetch_unmapped hole),
    fun op t hop => ⟨fun i h => step_of_decode_one hf hl hop h, fun hole => ?afterOne, fun b1 u hb1 =>
      ⟨fun i h => step_of_decode_two hf hl hop hb1 h, fun hole => ?afterTwo,
        fun b2 w i hb2 h => step_of_decode_three hf hl hop hb1 hb2 h⟩⟩⟩
  case afterOne =>
    rcases opcode_cases op with hu | ⟨i, h1⟩ | ⟨mk, h2⟩ | ⟨mk, h3⟩
    · rw [decode_unknown hu]; exact step_of_fetch_raise hf hl (fetch_unknown hop hu)
    · rw [decode_f1 h1]; exact step_of_fetch hf hl (fetch_f1 hop h1)
    · rw [(decode_f2 h2).1]; exact step_of_fetch_raise hf hl (fetch_f2_unmapped hop h2 hole)
    · rw [(decode_f3 h3).1]; exact step_of_fetch_raise hf hl (fetch_f3_unmapped hop h3 hole)
  case afterTwo =>
    rcases opcode_cases op with hu | ⟨i, h1⟩ | ⟨mk, h2⟩ | ⟨mk, h3⟩
    · rw [decode_unknown hu]; exact step_of_fetch_raise hf hl (fetch_unknown hop hu)
    · rw [decode_f1 h1]; exact step_of_fetch hf hl (fetch_f1 hop h1)
    · rw [(decode_f2 h2).1, (decode_f2 h2).2]; exact step_of_fetch hf hl (fetch_f2 (s := beginStep s) hop hb1 h2)
    · rw [(decode_f3 h3).1, (decode_f3 h3).2.1]; exact step_of_fetch_raise hf hl (fetch_f3_high_unmapped hop hb1 h3 hole)

end Sys2Proof.Machine
end

section
/-! SUPPORT. Decoding and encoding (R90, R104, R105): the bytes the opcode map makes of an instruction are those that decode
to it, and are its encoding; O1, O2 and O3. -/

namespace Sys2Proof

/-! ## The opcode map against the tables written apart from it -/

/-- The number of operand bytes of a format (R90). -/
def Shape.operands : Shape → Nat
  | .f1 _ => 0
  | .f2 _ => 1
  | .f3 _ => 2

theorem mem_opcodeMap_of_opcodeRow {op : Byte} {row : OpcodeRow} (h : opcodeRow op = some row) :
    row ∈ opcodeMap ∧ row.opcode = op := by
  unfold opcodeRow at h
  have hop := List.find?_some h
  exact ⟨List.mem_of_find?_eq_some h, beq_iff_eq.1 hop⟩

/-- No row's opcode is in R105's list, and every byte that is not in the list has a row. -/
theorem mem_illegalOpcodes_iff (op : Byte) : op.toNat ∈ illegalOpcodes ↔ opcodeRow op = none := by
  have rowsLegal : ∀ row ∈ opcodeMap, row.opcode.toNat ∉ illegalOpcodes := by decide +kernel
  have covered : ∀ n < 256, n ∈ illegalOpcodes ∨ n ∈ opcodeMap.map fun row => row.opcode.toNat := by decide +kernel
  constructor
  · intro illegal
    refine Option.eq_none_iff_forall_ne_some.2 fun row hrow => ?_
    obtain ⟨hmem, rfl⟩ := mem_opcodeMap_of_opcodeRow hrow
    exact rowsLegal row hmem illegal
  · intro hnone
    refine (covered op.toNat op.isLt).resolve_right fun h => ?_
    obtain ⟨row, hmem, hop⟩ := List.mem_map.1 h
    exact List.find?_eq_none.1 hnone row hmem (beq_iff_eq.2 (BitVec.eq_of_toNat_eq hop))

theorem opcodeMap_operandCount : ∀ row ∈ opcodeMap, operandCount row.opcode = row.shape.operands := by decide +kernel

/-- The encoder writes `op` and then the operand bytes for every instruction that the format makes (R90). -/
def Shape.EncodedAfter (op : Byte) : Shape → Prop
  | .f1 i => encode i = [op]
  | .f2 mk => ∀ b1, encode (mk b1) = [op, b1]
  | .f3 mk => ∀ w, encode (mk w) = op :: wordBytes w

/-- Row by row, the encoder writes what the map says. -/
theorem opcodeMap_encodedAfter : ∀ row ∈ opcodeMap, row.shape.EncodedAfter row.opcode := by
  simp only [opcodeMap, opcodes0, opcodes1, opcodes2, opcodes3, opcodes4, opcodes5, opcodes6, opcodes7, opcodes8, opcodes9,
    opcodesA, opcodesB, opcodesC, opcodesD, opcodesE, opcodesF, List.forall_mem_append, List.forall_mem_cons,
    List.not_mem_nil, false_implies, implies_true, and_true]
  repeat' apply And.intro
  all_goals dsimp only [Shape.EncodedAfter]; intros; rfl

namespace OpcodeShape

variable {op : Byte} {shape : Shape}

theorem legal (h : OpcodeShape op shape) : op.toNat ∉ illegalOpcodes := by
  obtain ⟨row, hrow, -⟩ := h
  rw [mem_illegalOpcodes_iff, hrow]
  exact Option.some_ne_none row

theorem operandCount (h : OpcodeShape op shape) : operandCount op = shape.operands := by
  obtain ⟨row, hrow, rfl⟩ := h
  obtain ⟨hmem, rfl⟩ := mem_opcodeMap_of_opcodeRow hrow
  exact opcodeMap_operandCount row hmem

theorem encodedAfter (h : OpcodeShape op shape) : shape.EncodedAfter op := by
  obtain ⟨row, hrow, rfl⟩ := h
  obtain ⟨hmem, rfl⟩ := mem_opcodeMap_of_opcodeRow hrow
  exact opcodeMap_encodedAfter row hmem

end OpcodeShape

/-! ## The encodings that the opcode map makes -/

/-- `i` is what the format of an opcode makes of its operand bytes, and the bytes are that opcode and those operand bytes, a
word low byte first (R75, R90, R104). -/
inductive EncodedByMap : Instr → List Byte → Prop where
  | f1 {op : Byte} {i : Instr} (h : OpcodeShape op (.f1 i)) : EncodedByMap i [op]
  | f2 {op : Byte} {mk : Byte → Instr} (h : OpcodeShape op (.f2 mk)) (b1 : Byte) : EncodedByMap (mk b1) [op, b1]
  | f3 {op : Byte} {mk : Word → Instr} (h : OpcodeShape op (.f3 mk)) (w : Word) : EncodedByMap (mk w) (op :: wordBytes w)

/-- The map leaves no instruction out: each has a row of its format, at the opcode the encoder writes. -/
theorem encodedByMap_encode (i : Instr) : EncodedByMap i (encode i) :=
  match i with
  | .tax | .tay | .txa | .tya | .tsx | .txs | .inx | .iny | .dex | .dey | .aslAcc | .lsrAcc | .rolAcc | .rorAcc | .rts |
  .brk | .rti | .pha | .php | .pla | .plp | .clc | .sec | .cli | .sei | .cld | .sed | .clv | .nop => .f1 ⟨_, rfl, rfl⟩
  | .ldaImm b1 | .ldaZp b1 | .ldaZpX b1 | .ldaIndX b1 | .ldaIndY b1 | .ldxImm b1 | .ldxZp b1 | .ldxZpY b1 | .ldyImm b1 |
  .ldyZp b1 | .ldyZpX b1 | .staZp b1 | .staZpX b1 | .staIndX b1 | .staIndY b1 | .stxZp b1 | .stxZpY b1 | .styZp b1 |
  .styZpX b1 | .adcImm b1 | .adcZp b1 | .adcZpX b1 | .adcIndX b1 | .adcIndY b1 | .sbcImm b1 | .sbcZp b1 | .sbcZpX b1 |
  .sbcIndX b1 | .sbcIndY b1 | .andImm b1 | .andZp b1 | .andZpX b1 | .andIndX b1 | .andIndY b1 | .oraImm b1 | .oraZp b1 |
  .oraZpX b1 | .oraIndX b1 | .oraIndY b1 | .eorImm b1 | .eorZp b1 | .eorZpX b1 | .eorIndX b1 | .eorIndY b1 | .cmpImm b1 |
  .cmpZp b1 | .cmpZpX b1 | .cmpIndX b1 | .cmpIndY b1 | .cpxImm b1 | .cpxZp b1 | .cpyImm b1 | .cpyZp b1 | .bitZp b1 |
  .incZp b1 | .incZpX b1 | .decZp b1 | .decZpX b1 | .aslZp b1 | .aslZpX b1 | .lsrZp b1 | .lsrZpX b1 | .rolZp b1 |
  .rolZpX b1 | .rorZp b1 | .rorZpX b1 | .bccRel b1 | .bcsRel b1 | .beqRel b1 | .bneRel b1 | .bmiRel b1 | .bplRel b1 |
  .bvcRel b1 | .bvsRel b1 => .f2 ⟨_, rfl, rfl⟩ b1
  | .ldaAbs w | .ldaAbsX w | .ldaAbsY w | .ldxAbs w | .ldxAbsY w | .ldyAbs w | .ldyAbsX w | .staAbs w | .staAbsX w |
  .staAbsY w | .stxAbs w | .styAbs w | .adcAbs w | .adcAbsX w | .adcAbsY w | .sbcAbs w | .sbcAbsX w | .sbcAbsY w |
  .andAbs w | .andAbsX w | .andAbsY w | .oraAbs w | .oraAbsX w | .oraAbsY w | .eorAbs w | .eorAbsX w | .eorAbsY w |
  .cmpAbs w | .cmpAbsX w | .cmpAbsY w | .cpxAbs w | .cpyAbs w | .bitAbs w | .incAbs w | .incAbsX w | .decAbs w |
  .decAbsX w | .aslAbs w | .aslAbsX w | .lsrAbs w | .lsrAbsX w | .rolAbs w | .rolAbsX w | .rorAbs w | .rorAbsX w |
  .jmpAbs w | .jmpInd w | .jsrAbs w => .f3 ⟨_, rfl, rfl⟩ w

namespace EncodedByMap

variable {i : Instr} {bs : List Byte}

theorem eq_encode (h : EncodedByMap i bs) : bs = encode i := by
  cases h with
  | f1 h => exact h.encodedAfter.symm
  | f2 h b1 => exact (h.encodedAfter b1).symm
  | f3 h w => exact (h.encodedAfter w).symm

theorem decode_append (h : EncodedByMap i bs) (rest : List Byte) : decode (bs ++ rest) = .ok (i, rest) := by
  cases h with
  | f1 h => exact decode_f1 h rest
  | f2 h b1 => exact (decode_f2 h).2 b1 rest
  | f3 h w =>
    obtain ⟨-, -, operand⟩ := decode_f3 h
    exact (operand (loByte w) (hiByte w) rest).trans (by rw [wordOf_bytes])

theorem opcode (h : EncodedByMap i bs) : ∃ shape, OpcodeShape (bs.headD 0) shape := by
  cases h with
  | f1 h => exact ⟨_, h⟩
  | f2 h b1 => exact ⟨_, h⟩
  | f3 h w => exact ⟨_, h⟩

end EncodedByMap

theorem wordBytes_wordOf (hi lo : Byte) : wordBytes (wordOf hi lo) = [lo, hi] := by
  rw [wordBytes, loByte_wordOf, hiByte_wordOf]

/-- Whatever decodes begins with bytes that the opcode map makes of the instruction it decodes to. -/
theorem encodedByMap_of_decode {bs : List Byte} {i : Instr} {rest : List Byte} (h : decode bs = .ok (i, rest)) :
    ∃ whole, EncodedByMap i whole ∧ bs = whole ++ rest := by
  match bs with
  | [] => cases h
  | op :: operands =>
    rcases opcode_cases op with hu | ⟨j, h1⟩ | ⟨mk, h2⟩ | ⟨mk, h3⟩
    · rw [decode_unknown hu] at h; cases h
    · rw [decode_f1 h1] at h; cases h
      exact ⟨[op], .f1 h1, rfl⟩
    · match operands with
      | [] => rw [(decode_f2 h2).1] at h; cases h
      | b1 :: _ =>
        rw [(decode_f2 h2).2] at h; cases h
        exact ⟨[op, b1], .f2 h2 b1, rfl⟩
    · obtain ⟨noOperand, halfOperand, operand⟩ := decode_f3 h3
      match operands with
      | [] => rw [noOperand] at h; cases h
      | [lo] => rw [halfOperand] at h; cases h
      | lo :: hi :: _ =>
        rw [operand] at h; cases h
        exact ⟨op :: wordBytes (wordOf hi lo), .f3 h3 _, by rw [wordBytes_wordOf]; rfl⟩

/-- A byte string decodes to `i` exactly where it begins with the encoding of `i`. -/
theorem decode_eq_ok_iff {bs : List Byte} {i : Instr} {rest : List Byte} :
    decode bs = .ok (i, rest) ↔ bs = encode i ++ rest := by
  constructor
  · intro h
    obtain ⟨whole, hwhole, rfl⟩ := encodedByMap_of_decode h
    rw [hwhole.eq_encode]
  · rintro rfl
    exact (encodedByMap_encode i).decode_append rest

/-! ## Which byte strings are one whole instruction -/

theorem encodingWellFormed_cons {op : Byte} {operands : List Byte} :
    encodingWellFormed (op :: operands) = true ↔ op.toNat ∉ illegalOpcodes ∧ operands.length = operandCount op := by
  simp only [encodingWellFormed, opcodeLegal, List.contains_eq_mem, Bool.and_eq_true, Bool.not_eq_true',
    decide_eq_false_iff_not, beq_iff_eq]

theorem EncodedByMap.wellFormed {i : Instr} {bs : List Byte} (h : EncodedByMap i bs) : encodingWellFormed bs = true := by
  cases h with
  | f1 h => exact encodingWellFormed_cons.2 ⟨h.legal, h.operandCount.symm⟩
  | f2 h b1 => exact encodingWellFormed_cons.2 ⟨h.legal, h.operandCount.symm⟩
  | f3 h w => exact encodingWellFormed_cons.2 ⟨h.legal, h.operandCount.symm⟩

theorem decode_of_wellFormed {bs : List Byte} (h : encodingWellFormed bs = true) : ∃ i, decode bs = .ok (i, []) := by
  match bs with
  | [] => cases h
  | op :: operands =>
    obtain ⟨legal, count⟩ := encodingWellFormed_cons.1 h
    rcases opcode_cases op with hu | ⟨i, h1⟩ | ⟨mk, h2⟩ | ⟨mk, h3⟩
    · exact absurd ((mem_illegalOpcodes_iff op).2 hu) legal
    · obtain rfl := List.length_eq_zero_iff.1 (count.trans h1.operandCount)
      exact ⟨i, decode_f1 h1 []⟩
    · obtain ⟨b1, rfl⟩ := List.length_eq_one_iff.1 (count.trans h2.operandCount)
      exact ⟨mk b1, (decode_f2 h2).2 b1 []⟩
    · have two : operands.length = 2 := count.trans h3.operandCount
      obtain ⟨-, -, operand⟩ := decode_f3 h3
      match operands, two with
      | [lo, hi], _ => exact ⟨mk (wordOf hi lo), operand lo hi []⟩

/-- Settles O2: the map has a row for every instruction, at the opcode its encoding begins with. -/
theorem decodeGivesBackEncoded : Obligations.DecodeGivesBackEncoded := by
  unfold Obligations.DecodeGivesBackEncoded
  exact fun i rest => decode_eq_ok_iff.2 rfl

/-- Settles O3: what decodes is laid out by the map, and so is the encoding; a legal opcode has a row, whose format takes as
many operand bytes as its place in the map says. -/
theorem onlyEncodingsDecode : Obligations.OnlyEncodingsDecode := by
  unfold Obligations.OnlyEncodingsDecode
  refine ⟨fun bs i rest h => decode_eq_ok_iff.1 h, fun bs => ⟨decode_of_wellFormed, ?_⟩⟩
  rintro ⟨i, h⟩
  rw [decode_eq_ok_iff.1 h, List.append_nil]
  exact (encodedByMap_encode i).wellFormed

/-- Settles O1: each word is the encoding of its instruction, and 0x89 has no row. -/
theorem specWordsDecode : Obligations.SpecWordsDecode := by
  unfold Obligations.SpecWordsDecode
  refine ⟨?_, ?_, ?_, ?_, ?_, ?_, ?_, ?_, ?_, ?_, ?_, ?_, ?_, ?_, decode_unknown rfl _⟩
  all_goals exact decode_eq_ok_iff.2 rfl

end Sys2Proof
end

section
/-! SUPPORT. Fetching an illegal byte (R91, R105): O4. -/

namespace Sys2Proof.Machine

/-- Settles O4: an illegal byte has no row, so the fetch raises the error after the byte's read. -/
theorem illegalOpcodeFaults : Obligations.IllegalOpcodeFaults := by
  unfold Obligations.IllegalOpcodeFaults
  refine ⟨by decide, mem_illegalOpcodes_iff, fun s t op hf hl hop illegal => ?_⟩
  exact step_of_fetch_raise hf hl (fetch_unknown (s := beginStep s) hop ((mem_illegalOpcodes_iff op).1 illegal))

end Sys2Proof.Machine
end

section
/-! SUPPORT. Effective addresses (R97 to R101) as numbers, and the pointers the indirect modes read: O8 and O18. -/

namespace Sys2Proof.Machine

/-! ## Addresses as numbers -/

theorem zext_toNat (b : Byte) : (zext b).toNat = b.toNat := by
  rw [zext, BitVec.toNat_setWidth_of_le (by decide)]

theorem ofNat_eq_zext {b : Byte} {n : Nat} (h : n = b.toNat) : BitVec.ofNat 16 n = zext b := by
  subst h; apply BitVec.eq_of_toNat_eq
  have := b.isLt
  rw [zext_toNat, BitVec.toNat_ofNat]; omega

theorem memRead_zext (s : State) (b : Byte) : memRead (zext b) s = .ok (zeroPageByte s b) s := memRead_zeroPage s b

theorem zeroPageWord_toNat (s : State) (b : Byte) :
    (zeroPageWord s b).toNat = (zeroPageByte s (b + 1)).toNat * 256 + (zeroPageByte s b).toNat := wordOf_toNat _ _

/-- The bytes of a pointer in the zero page are bus reads, the second wrapping within the page (R100, R101). -/
theorem memRead_pointer (s : State) {p : Byte} {n : Nat} (hn : n % 256 = p.toNat) :
    memRead (BitVec.ofNat 16 (n % 256)) s = .ok (zeroPageByte s p) s ∧
    memRead (BitVec.ofNat 16 ((n + 1) % 256)) s = .ok (zeroPageByte s (p + 1)) s := by
  have hnext : (n + 1) % 256 = (p + 1).toNat := by 
    rw [BitVec.toNat_add, ← hn]
    exact (Nat.mod_add_mod n 256 1).symm
  rw [ofNat_eq_zext hn, ofNat_eq_zext hnext]
  exact ⟨memRead_zext s p, memRead_zext s (p + 1)⟩

/-- Settles O8: the modes without a pointer by arithmetic, the two with one by what the zero page holds. -/
theorem effectiveAddresses : Obligations.EffectiveAddresses := by
  unfold Obligations.EffectiveAddresses
  intro s b w
  have sum : ∀ r : Byte, (zext (b + r)).toNat = (b.toNat + r.toNat) % 256 := fun r => by
    rw [zext_toNat, BitVec.toNat_add]
  have indexed : ∀ (a : Word) (r : Byte), (a + zext r).toNat = (a.toNat + r.toNat) % 65536 := fun a r => by
    rw [BitVec.toNat_add, zext_toNat]
  refine ⟨zext_toNat b, sum _, sum _, rfl, indexed w _, indexed w _, ?_, ?_⟩
  · obtain ⟨hlo, hhi⟩ := memRead_pointer s (p := b + s.cpu.x) (BitVec.toNat_add b s.cpu.x).symm
    exact ⟨_, _, hlo, hhi, zeroPageWord_toNat s _⟩
  · have hb : b.toNat % 256 = b.toNat := Nat.mod_eq_of_lt b.isLt
    obtain ⟨hlo, hhi⟩ := memRead_pointer s (p := b) hb
    rw [hb] at hlo
    exact ⟨_, _, hlo, hhi, (indexed _ _).trans (by rw [zeroPageWord_toNat])⟩

/-! ## The pointer of JMP (R99) -/

theorem mask_or_mask_eq_wordOf (w v : Word) : (w &&& 0xFF00) ||| (v &&& 0x00FF) = wordOf (hiByte w) (loByte v) := by
  have masks : ∀ k < 16,
      (0xFF00 : Word).getLsbD k = decide (8 ≤ k) ∧ (0x00FF : Word).getLsbD k = decide (k < 8) := by decide
  refine BitVec.eq_of_getLsbD_eq fun k hk => ?_
  obtain ⟨high, low⟩ := masks k hk
  rw [BitVec.getLsbD_or, BitVec.getLsbD_and, BitVec.getLsbD_and, high, low, wordOf, BitVec.getLsbD_append, hiByte, loByte,
    BitVec.getLsbD_extractLsb', BitVec.getLsbD_extractLsb']
  by_cases h : k < 8
  · simp only [h, Nat.not_le.2 h, decide_true, decide_false, Bool.and_false, Bool.and_true, Bool.true_and, Bool.false_or,
      if_true, Nat.zero_add]
  · simp only [h, Nat.not_lt.1 h, show k - 8 < 8 by omega, decide_true, decide_false, Bool.and_false, Bool.and_true,
      Bool.true_and, Bool.or_false, if_false, Nat.add_sub_cancel']

theorem loByte_add_one (w : Word) : loByte (w + 1) = loByte w + 1 := by
  have ones : (1 : Word).toNat = 1 ∧ (1 : Byte).toNat = 1 := ⟨rfl, rfl⟩
  apply BitVec.eq_of_toNat_eq
  rw [loByte_toNat, BitVec.toNat_add, BitVec.toNat_add, loByte_toNat, ones.1, ones.2]; omega

theorem pointerHighAddress_eq (w : Word) : pointerHighAddress w = (w &&& 0xFF00) ||| ((w + 1) &&& 0x00FF) := by
  rw [mask_or_mask_eq_wordOf, loByte_add_one]; rfl

theorem exec_jmpInd (w : Word) (s : State) : exec (.jmpInd w) s = execJmpInd w s := rfl

/-- Settles O18: the word at the pointer, by whether each of its bytes has a handler. -/
theorem jumpsRun : Obligations.JumpsRun := by
  unfold Obligations.JumpsRun
  intro s w high hhigh
  rw [← pointerHighAddress_eq] at hhigh
  subst hhigh
  refine ⟨rfl, rfl, rfl, fun hw hh => ?_, fun hw => ?_, fun hw hh => ?_⟩
  · obtain ⟨lo, t, hlo⟩ := memRead_mapped hw s
    obtain ⟨hi, u, hhi⟩ := memRead_mapped hh t
    exact ⟨lo, t, hi, u, hlo, hhi, execJmpInd_eq_next.2 ⟨lo, t, hi, u, hlo, hhi, rfl⟩⟩
  · rw [exec_jmpInd, execJmpInd, memRead_unmapped hw]; rfl
  · obtain ⟨lo, t, hlo⟩ := memRead_mapped hw s
    refine ⟨lo, t, hlo, ?_⟩
    rw [exec_jmpInd, execJmpInd, hlo, Res.ok_bind, memRead_unmapped hh]; rfl

end Sys2Proof.Machine
end

section
/-! SUPPORT. The step's clock (R104, R350, R351, R353): the base cycles of each opcode, what a step charges, and what leaves the
count of cycles alone; O6. -/

namespace Sys2Proof

/-! ## Base cycles -/

theorem opcodeMap_cycles : ∀ row ∈ opcodeMap,
    row.cycles = (Machine.cyclesByOpcode.getD (row.opcode.toNat / 16) []).getD (row.opcode.toNat % 16) 0 := by
  decide +kernel

theorem two_le_cycles : ∀ row ∈ opcodeMap, 2 ≤ row.cycles := by decide +kernel

/-- The row of an instruction: at the opcode its encoding begins with, and with its base cycles (R104, R351). -/
theorem exists_row (i : Instr) : ∃ row ∈ opcodeMap, row.opcode = opcodeOf i ∧ row.cycles = baseCycles i := by
  obtain ⟨_, row, hrow, -⟩ : ∃ shape, OpcodeShape (opcodeOf i) shape := (encodedByMap_encode i).opcode
  obtain ⟨hmem, hop⟩ := mem_opcodeMap_of_opcodeRow hrow
  exact ⟨row, hmem, hop, by rw [baseCycles, hrow]; rfl⟩

theorem baseCycles_eq_table (i : Instr) :
    baseCycles i = (Machine.cyclesByOpcode.getD ((opcodeOf i).toNat / 16) []).getD ((opcodeOf i).toNat % 16) 0 := by
  obtain ⟨row, hmem, hop, hcycles⟩ := exists_row i
  rw [← hcycles, ← hop, opcodeMap_cycles row hmem]

theorem two_le_baseCycles (i : Instr) : 2 ≤ baseCycles i := by
  obtain ⟨row, hmem, -, hcycles⟩ := exists_row i
  rw [← hcycles]
  exact two_le_cycles row hmem

end Sys2Proof

namespace Sys2Proof.Machine

/-! ## The charge and the ticks it buys -/

/-- With no PPU time owed, the charge of `cyc` cycles buys exactly `3 * cyc` PPU ticks (R350, R353). -/
theorem drainPpu_chargeCycles {i : Instr} {u : State} (h : u.clock.accPpu = 0) :
    drainPpu (chargeCycles i u) =
      ppuTicks (3 * stepCycles i u)
        { chargeCycles i u with clock := { (chargeCycles i u).clock with accPpu := 0 } } := by
  have hacc : (chargeCycles i u).clock.accPpu = stepCycles i u * 12 := by
    show u.clock.accPpu + stepCycles i u * Config.masterPerCpu = _
    rw [h, Nat.zero_add]; rfl
  have hticks : stepCycles i u * 12 / Config.masterPerPpu = 3 * stepCycles i u := by
    unfold Config.masterPerPpu; omega
  have hrest : stepCycles i u * 12 % Config.masterPerPpu = 0 := by
    unfold Config.masterPerPpu; omega
  rw [drainPpu, hacc, hticks, hrest]

theorem ppuTicks_clock (n : Nat) (s : State) : (ppuTicks n s).clock = s.clock := by rw [ppuTicks_frame]

/-! ## What leaves the count of cycles alone -/

theorem fetch_totalCycles {s t : State} {i : Instr} (h : fetch s = .ok i t) : t.clock.totalCycles = s.clock.totalCycles := by
  refine fetch_preserves (fun u => u.clock.totalCycles = s.clock.totalCycles) ?_ h rfl
  intro b u v hb hu
  obtain ⟨w, hr, rfl⟩ := fetchByte_eq_ok.1 hb
  rw [(memRead_frame hr).1]; exact hu

theorem exec_totalCycles {i : Instr} {s t : State} (h : exec i s = .next t) :
    t.clock.totalCycles = s.clock.totalCycles := by
  refine exec_preserves (fun u => u.clock.totalCycles = s.clock.totalCycles) (fun _ hu => hu) ?_ ?_ (fun hu => hu) h rfl
  · intro a v u w hr hu
    rw [(memRead_frame hr).1]; exact hu
  · intro a v u w hw hu
    rw [memWrite_frame hw]; exact hu

/-- What follows the charge of a step changes neither the total nor the step's own count. -/
theorem drains_cycles {s t : State} (h : drainApu (drainPpu s) = .ok () t) :
    t.clock.totalCycles = s.clock.totalCycles ∧ t.out.cycles = s.out.cycles := by
  have hframe := apuTicks_frame h
  unfold drainPpu at hframe
  rw [ppuTicks_frame] at hframe
  rw [hframe]
  exact ⟨rfl, rfl⟩

theorem step_cycles {s t : State} (h : step s = .next t) :
    t.clock.totalCycles = s.clock.totalCycles + t.out.cycles ∧ 2 ≤ t.out.cycles := by
  obtain ⟨-, -, i, u, v, w, hfetch, hexec, hdrain, rfl⟩ := step_eq_next.1 h
  obtain ⟨htotal, hcycles⟩ := drains_cycles hdrain
  rw [resolveInterrupt_frame]
  have hout : w.out.cycles = stepCycles i v := hcycles
  have hclock : w.clock.totalCycles = s.clock.totalCycles + stepCycles i v := by
    calc w.clock.totalCycles = v.clock.totalCycles + stepCycles i v := htotal
      _ = s.clock.totalCycles + stepCycles i v := by rw [exec_totalCycles hexec, fetch_totalCycles hfetch]; rfl
  have hbase : 2 ≤ stepCycles i v := by
    have := two_le_baseCycles i
    unfold stepCycles; omega
  exact ⟨hclock.trans (by rw [← hout]; rfl), Nat.le_trans hbase (Nat.le_of_eq hout.symm)⟩

/-- Settles O6: the ticks by division of the charge, the base cycles by the rows of the map, the count of cycles through the
parts of a step. -/
theorem stepClock : Obligations.StepClock := by
  unfold Obligations.StepClock
  refine ⟨?_, fun _ => rfl, ?_, fun _ => ⟨rfl, rfl⟩, fun _ _ => ⟨rfl, rfl⟩, fun _ _ => step_cycles⟩
  · rintro i u cyc hppu hcyc charged ticked hcharged rfl
    obtain rfl : cyc = stepCycles i u := hcyc
    have hcharge : { chargeCycles i u with clock := { (chargeCycles i u).clock with accPpu := 0 } } = charged := by
      rw [hcharged, Nat.mul_comm 12]; rfl
    rw [settle, drainPpu_chargeCycles hppu, hcharge, drainApu, ppuTicks_clock, hcharged]
    rfl
  · intro i op rest h
    have hop : opcodeOf i = op := by rw [opcodeOf, h]; rfl
    rw [baseCycles_eq_table, hop]

end Sys2Proof.Machine
end

section
/-! SUPPORT. From the read and the write class to what a form of the class does in every state (R95, R96), and the loads, stores,
transfers, register increments and flag instructions (R111 to R122, R142 to R145, R184 to R191): O9, O10 and O11. -/

namespace Sys2Proof.Machine

/-! ## A form runs as its class says -/

section

variable {bytes : List Byte} {i : Instr} {m : Mode}

/-- The read decides: it answers, without a change of the CPU, or it is the fault of R67. -/
theorem RunsRead.of_readInstr {f : Cpu → Byte → Cpu} (encoded : encode i = bytes)
    (meaning : ∀ s, exec i s = readInstr m f s) : RunsRead bytes i m f := by
  refine ⟨encoded, fun s => ⟨fun mapped => ?_, fun hole => ?_⟩⟩
  · obtain ⟨v, t, hread⟩ := memRead_mapped mapped s
    have hcpu : t.cpu = s.cpu := memRead_cpu hread
    refine ⟨v, t, hread, hcpu, ?_⟩
    rw [meaning, readInstr_eq_next]
    exact ⟨v, t, hread, by rw [hcpu]⟩
  · rw [meaning, readInstr, memRead_unmapped hole]; rfl

/-- The write decides, and it never changes the CPU. -/
theorem RunsStore.of_storeInstr {v : Cpu → Byte} (encoded : encode i = bytes)
    (meaning : ∀ s, exec i s = storeInstr m v s) : RunsStore bytes i m v := by
  have goesOn {s t : State} (h : memWrite (effectiveAddress m s) (v s.cpu) s = .ok () t) : exec i s = .next t := by
    rw [meaning, storeInstr_eq_next]; exact h
  refine ⟨encoded, fun s => ⟨fun hram => ?_, fun hsram => ?_, fun t hwrite => ?_, fun f hstop => ?_⟩⟩
  · exact goesOn (memWrite_workRam hram _ s)
  · exact goesOn (memWrite_sram hsram _ s)
  · exact ⟨memWrite_cpu hwrite, goesOn hwrite⟩
  · rw [meaning, storeInstr, hstop, Res.toOutcome_stop]

end

/-! ## The instructions -/

/-- Settles O9: the immediate forms change the CPU alone, the others are of the read class; of all the register takes the
operand. -/
theorem loadsRun : Obligations.LoadsRun := by
  unfold Obligations.LoadsRun
  intro b w
  simp only [Cpu.nz_eq_setNZ]
  have ldaImm : RunsImmediate [0xA9, b] (.ldaImm b) b Cpu.loadA := ⟨rfl, fun _ => rfl⟩
  have ldxImm : RunsImmediate [0xA2, b] (.ldxImm b) b Cpu.loadX := ⟨rfl, fun _ => rfl⟩
  have ldyImm : RunsImmediate [0xA0, b] (.ldyImm b) b Cpu.loadY := ⟨rfl, fun _ => rfl⟩
  refine ⟨ldaImm, ?_, ?_, ?_, ?_, ?_, ?_, ?_, ldxImm, ?_, ?_, ?_, ?_, ldyImm, ?_, ?_, ?_, ?_⟩
  all_goals exact .of_readInstr rfl fun _ => rfl

/-- Settles O10: every form is of the write class. -/
theorem storesRun : Obligations.StoresRun := by
  unfold Obligations.StoresRun
  intro b w
  refine ⟨?_, ?_, ?_, ?_, ?_, ?_, ?_, ?_, ?_, ?_, ?_, ?_, ?_⟩
  all_goals exact .of_storeInstr rfl fun _ => rfl

/-- Settles O11: each is a change of the CPU alone, by its meaning the one of its rule, with `SetNZ` where that has it. -/
theorem registerInstructionsRun : Obligations.RegisterInstructionsRun := by
  unfold Obligations.RegisterInstructionsRun
  simp only [Cpu.nz_eq_setNZ]
  refine ⟨?_, ?_, ?_, ?_, ?_, ?_, ?_, ?_, ?_, ?_, ?_, ?_, ?_, ?_, ?_, ?_, ?_, ?_⟩
  all_goals exact ⟨rfl, fun _ => rfl⟩

end Sys2Proof.Machine
end

section
/-! SUPPORT. The results and flags of the arithmetic instructions (R130, R131, R146): ADC and SBC as the statements spell them,
and their C and V as the overflow of the exact sum or difference; O23. -/

namespace Sys2Proof.Machine

/-! ## The sum and the complement -/

theorem ofNat_complement (m : Byte) : (BitVec.ofNat 8 (255 - m.toNat) : Byte) = ~~~m := by
  apply BitVec.eq_of_toNat_eq
  rw [BitVec.toNat_ofNat, BitVec.toNat_not]; omega

theorem complement_toInt (m : Byte) : (~~~m).toInt = -m.toInt - 1 := by
  have := m.isLt
  simp only [BitVec.toInt_eq_msb_cond, BitVec.msb_eq_decide, BitVec.toNat_not, decide_eq_true_eq]
  omega

/-- The same-sign test (R130) is two-complement overflow: the result's sign differs from that of both operands exactly when the
sum with a carry is not the value of a signed byte. -/
theorem sameSign_iff_overflow (a m : Byte) {k : Nat} (hk : k ≤ 1) :
    ((a ^^^ BitVec.ofNat 8 (a.toNat + m.toNat + k)) &&& (m ^^^ BitVec.ofNat 8 (a.toNat + m.toNat + k))).msb = true ↔
      a.toInt + m.toInt + k < -128 ∨ 127 < a.toInt + m.toInt + k := by
  have ha := a.isLt
  have hm := m.isLt
  rw [BitVec.msb_and, BitVec.msb_xor, BitVec.msb_xor, Bool.and_eq_true, bne_iff_ne, bne_iff_ne]
  simp only [BitVec.toInt_eq_msb_cond, BitVec.msb_eq_decide, BitVec.toNat_ofNat, decide_eq_true_eq, ne_eq, decide_eq_decide]
  omega

/-! ## ADC and SBC -/

/-- ADC as the statements spell it (R130). -/
theorem Cpu.adc_eq_nz (c : Cpu) (m : Byte) :
    let t := c.a.toNat + m.toNat + (if c.c then 1 else 0)
    let r : Byte := BitVec.ofNat 8 t
    ({ c with c := decide (t > 0xFF), v := ((c.a ^^^ r) &&& (m ^^^ r)).getLsbD 7, a := r } : Cpu).nz r = c.adc m :=
  Cpu.nz_eq_setNZ _ _

theorem Cpu.carry_le_one (c : Cpu) : c.carry ≤ 1 := by
  unfold Cpu.carry; split <;> omega

theorem Cpu.sbc_eq_adc (c : Cpu) (m : Byte) : c.sbc m = c.adc (~~~m) := rfl

theorem Cpu.adc_c_iff (c : Cpu) (m : Byte) : (c.adc m).c = true ↔ c.a.toNat + m.toNat + c.carry > 255 := decide_eq_true_iff

theorem Cpu.adc_v_iff (c : Cpu) (m : Byte) :
    (c.adc m).v = true ↔ c.a.toInt + m.toInt + c.carry < -128 ∨ 127 < c.a.toInt + m.toInt + c.carry :=
  sameSign_iff_overflow c.a m c.carry_le_one

theorem Cpu.adc_a_toNat (c : Cpu) (m : Byte) : (c.adc m).a.toNat = (c.a.toNat + m.toNat + c.carry) % 256 :=
  BitVec.toNat_ofNat _ _

/-- Settles O23: ADC by its flags and result as numbers, SBC as ADC of the complement, whose carry in is no borrow. -/
theorem signedAndUnsignedOverflow : Obligations.SignedAndUnsignedOverflow := by
  unfold Obligations.SignedAndUnsignedOverflow
  refine ⟨fun s t m k hk h => ?adc, fun s t m k hk h => ?sbc⟩
  case adc =>
    obtain rfl : s.withCpu (s.cpu.adc m) = t := Host.Outcome.next.inj h
    have hcarry : k = s.cpu.carry := by rw [hk, Cpu.carry]; split <;> rfl
    rw [State.withCpu_cpu, Cpu.adc_c_iff, Cpu.adc_v_iff, Cpu.adc_a_toNat]
    omega
  case sbc =>
    obtain rfl : s.withCpu (s.cpu.sbc m) = t := Host.Outcome.next.inj h
    have hcarry : k = 1 - (s.cpu.carry : Int) := by rw [hk, Cpu.carry]; split <;> rfl
    have hm := m.isLt
    have hnot : (~~~m).toNat = 255 - m.toNat := BitVec.toNat_not
    rw [State.withCpu_cpu, Cpu.sbc_eq_adc, Cpu.adc_c_iff, Cpu.adc_v_iff, Cpu.adc_a_toNat, complement_toInt, hnot]
    omega

end Sys2Proof.Machine
end

section
/-! SUPPORT. From the read-modify-write class to what a form of it does in every state (R96, R150), and the arithmetic, logic,
compare and memory increment instructions in every form (R130 to R141): O12, O13, O14 and O15. -/

namespace Sys2Proof.Machine

/-- The read decides, then the write, which sees the carry set; neither changes the CPU. -/
theorem RunsModify.of_modifyInstr {bytes : List Byte} {i : Instr} {m : Mode} {f : Cpu → Byte → Modified}
    {r : Cpu → Byte → Byte} {k : Cpu → Byte → Bool} (encoded : encode i = bytes)
    (meaning : ∀ s, exec i s = modifyInstr m f s) (modified : ∀ c v, f c v = ⟨r c v, k c v⟩) :
    RunsModify bytes i m r k := by
  have afterRead {s t : State} {v : Byte} (hread : memRead (effectiveAddress m s) s = .ok v t) :
      exec i s = ((memWrite (effectiveAddress m s) (r s.cpu v) (t.withCpu { s.cpu with c := k s.cpu v })).bind
        fun _ u => .ok () (u.withCpu (u.cpu.setNZ (r s.cpu v)))).toOutcome := by
    rw [meaning, modifyInstr, hread, Res.ok_bind, memRead_cpu hread, modified]; rfl
  have goesOn {s t u : State} {v : Byte} (hread : memRead (effectiveAddress m s) s = .ok v t)
      (hwrite : memWrite (effectiveAddress m s) (r s.cpu v) (t.withCpu { s.cpu with c := k s.cpu v }) = .ok () u) :
      exec i s = .next (u.withCpu (({ s.cpu with c := k s.cpu v } : Cpu).nz (r s.cpu v))) := by
    rw [afterRead hread, hwrite, Res.ok_bind, Res.toOutcome_ok, memWrite_cpu hwrite, State.withCpu_cpu, Cpu.nz_eq_setNZ]
  refine ⟨encoded, fun s => ⟨fun hram v hv => ?_, fun hsram v hv => ?_, fun v t u => goesOn, fun v t f hread hstop => ?_,
    fun hole => ?_⟩⟩
  · subst hv; exact goesOn (memRead_workRam hram s) (memWrite_workRam hram _ _)
  · subst hv; exact goesOn (memRead_sram hsram s) (memWrite_sram hsram _ _)
  · rw [afterRead hread, hstop, Res.stop_bind, Res.toOutcome_stop]
  · rw [meaning, modifyInstr, memRead_unmapped hole]; rfl

/-! ## The instructions -/

/-- Settles O12: what the statement adds and subtracts is `Cpu.adc` and `Cpu.sbc`; each form is immediate or of the read
class. -/
theorem addSubtractRun : Obligations.AddSubtractRun := by
  unfold Obligations.AddSubtractRun
  intro b w add sub
  have hadd : add = Cpu.adc := funext fun c => funext fun m => Cpu.adc_eq_nz c m
  have hsub : sub = Cpu.sbc := funext fun c => funext fun m => by
    rw [Cpu.sbc_eq_adc, ← ofNat_complement, ← hadd]
  rw [hadd, hsub]
  have adcImm : RunsImmediate [0x69, b] (.adcImm b) b Cpu.adc := ⟨rfl, fun _ => rfl⟩
  have sbcImm : RunsImmediate [0xE9, b] (.sbcImm b) b Cpu.sbc := ⟨rfl, fun _ => rfl⟩
  refine ⟨adcImm, ?_, ?_, ?_, ?_, ?_, ?_, ?_, sbcImm, ?_, ?_, ?_, ?_, ?_, ?_, ?_⟩
  all_goals exact .of_readInstr rfl fun _ => rfl

/-- Settles O13: A takes the bitwise result as a load would; each form is immediate or of the read class. -/
theorem logicRuns : Obligations.LogicRuns := by
  unfold Obligations.LogicRuns
  intro b w
  simp only [Cpu.nz_eq_setNZ]
  have andImm : RunsImmediate [0x29, b] (.andImm b) b Cpu.andA := ⟨rfl, fun _ => rfl⟩
  have oraImm : RunsImmediate [0x09, b] (.oraImm b) b Cpu.orA := ⟨rfl, fun _ => rfl⟩
  have eorImm : RunsImmediate [0x49, b] (.eorImm b) b Cpu.eorA := ⟨rfl, fun _ => rfl⟩
  refine ⟨andImm, ?_, ?_, ?_, ?_, ?_, ?_, ?_, oraImm, ?_, ?_, ?_, ?_, ?_, ?_, ?_, eorImm, ?_, ?_, ?_, ?_, ?_, ?_, ?_⟩
  all_goals exact .of_readInstr rfl fun _ => rfl

/-- Settles O14: each form is immediate or of the read class; BIT has the read class only. -/
theorem comparesRun : Obligations.ComparesRun := by
  unfold Obligations.ComparesRun
  intro b w
  simp only [Cpu.nz_eq_setNZ]
  have cmpImm : RunsImmediate [0xC9, b] (.cmpImm b) b Cpu.cmp := ⟨rfl, fun _ => rfl⟩
  have cpxImm : RunsImmediate [0xE0, b] (.cpxImm b) b Cpu.cpx := ⟨rfl, fun _ => rfl⟩
  have cpyImm : RunsImmediate [0xC0, b] (.cpyImm b) b Cpu.cpy := ⟨rfl, fun _ => rfl⟩
  refine ⟨cmpImm, ?_, ?_, ?_, ?_, ?_, ?_, ?_, cpxImm, ?_, ?_, cpyImm, ?_, ?_, ?_, ?_⟩
  all_goals exact .of_readInstr rfl fun _ => rfl

/-- Settles O15: every form is of the read-modify-write class and leaves C as it is. -/
theorem memoryIncrementsRun : Obligations.MemoryIncrementsRun := by
  unfold Obligations.MemoryIncrementsRun
  intro b w
  refine ⟨?_, ?_, ?_, ?_, ?_, ?_, ?_, ?_⟩
  all_goals exact .of_modifyInstr rfl (fun _ => rfl) fun _ _ => rfl

end Sys2Proof.Machine
end

section
/-! SUPPORT. Shifts and rotates (R150 to R154): the results as numbers and the accumulator form, O16; A and C as a ring of nine
bits, which ROL A and ROR A turn, O24. -/

namespace Sys2Proof.Machine

/-! ## The results as numbers -/

/-- A byte moved up one place, with `b` coming in at the bottom (R151, R153). -/
theorem moveUp_eq_ofNat (m : Byte) (b : Bool) :
    m.extractLsb 6 0 ++ BitVec.ofBool b = (BitVec.ofNat 8 (m.toNat * 2 + if b then 1 else 0) : Byte) := by
  have hlow : (m.extractLsb 6 0).toNat = m.toNat % 128 := BitVec.extractLsb_toNat ..
  apply BitVec.eq_of_toNat_eq
  rw [BitVec.append_ofBool, BitVec.toNat_concat, hlow, BitVec.toNat_ofNat]
  cases b <;> simp only [Bool.toNat, cond, if_true, if_false, reduceCtorEq] <;> omega

/-- A byte moved down one place, with `b` coming in at the top (R152, R154). -/
theorem moveDown_eq_ofNat (m : Byte) (b : Bool) :
    BitVec.ofBool b ++ m.extractLsb 7 1 = (BitVec.ofNat 8 (m.toNat / 2 + if b then 128 else 0) : Byte) := by
  have hm := m.isLt
  have hhigh : (m.extractLsb 7 1).toNat = m.toNat / 2 := by
    rw [BitVec.extractLsb_toNat, Nat.shiftRight_eq_div_pow]; omega
  apply BitVec.eq_of_toNat_eq
  rw [BitVec.ofBool_append, BitVec.toNat_cast, BitVec.toNat_cons', hhigh, BitVec.toNat_ofNat]
  cases b <;> simp only [Bool.toNat, cond, if_true, if_false, reduceCtorEq] <;> omega

theorem modAsl_eq (c : Cpu) (m : Byte) : modAsl c m = ⟨BitVec.ofNat 8 (m.toNat * 2), m.getLsbD 7⟩ :=
  congrArg (Modified.mk · _) (moveUp_eq_ofNat m false)

theorem modLsr_eq (c : Cpu) (m : Byte) : modLsr c m = ⟨BitVec.ofNat 8 (m.toNat / 2), m.getLsbD 0⟩ :=
  congrArg (Modified.mk · _) (moveDown_eq_ofNat m false)

theorem modRol_eq (c : Cpu) (m : Byte) :
    modRol c m = ⟨BitVec.ofNat 8 (m.toNat * 2 + if c.c then 1 else 0), m.getLsbD 7⟩ :=
  congrArg (Modified.mk · _) (moveUp_eq_ofNat m c.c)

theorem modRor_eq (c : Cpu) (m : Byte) :
    modRor c m = ⟨BitVec.ofNat 8 (m.toNat / 2 + if c.c then 128 else 0), m.getLsbD 0⟩ :=
  congrArg (Modified.mk · _) (moveDown_eq_ofNat m c.c)

/-! ## The accumulator form -/

/-- The CPU that the accumulator form of a modification leaves (R150). -/
def Cpu.modifyA (f : Cpu → Byte → Modified) (c : Cpu) : Cpu := (c.withCarry (f c c.a)).loadA (f c c.a).result

theorem Cpu.modifyA_a (f : Cpu → Byte → Modified) (c : Cpu) : (c.modifyA f).a = (f c c.a).result := rfl

theorem Cpu.modifyA_c (f : Cpu → Byte → Modified) (c : Cpu) : (c.modifyA f).c = (f c c.a).carry := rfl

theorem accInstr_eq (f : Cpu → Byte → Modified) (s : State) : accInstr f s = .next (s.withCpu (s.cpu.modifyA f)) := rfl

theorem RunsOnCpu.of_accInstr {bytes : List Byte} {i : Instr} {f : Cpu → Byte → Modified} {r : Cpu → Byte → Byte}
    {k : Cpu → Byte → Bool} (encoded : encode i = bytes) (meaning : ∀ s, exec i s = accInstr f s)
    (modified : ∀ c v, f c v = ⟨r c v, k c v⟩) :
    RunsOnCpu bytes i fun c => ({ c with a := r c c.a, c := k c c.a } : Cpu).nz (r c c.a) := by
  refine ⟨encoded, fun s => ?_⟩
  rw [meaning, accInstr_eq, Cpu.modifyA, modified]
  exact congrArg (fun c => Host.Outcome.next (s.withCpu c)) (Cpu.nz_eq_setNZ _ _).symm

/-- Settles O16: each form is the accumulator form or of the read-modify-write class, with the result and the carry of its
rule. -/
theorem shiftsRun : Obligations.ShiftsRun := by
  unfold Obligations.ShiftsRun
  intro b w
  refine ⟨.of_accInstr rfl (fun _ => rfl) modAsl_eq, ?_, ?_, ?_, ?_,
    .of_accInstr rfl (fun _ => rfl) modLsr_eq, ?_, ?_, ?_, ?_,
    .of_accInstr rfl (fun _ => rfl) modRol_eq, ?_, ?_, ?_, ?_,
    .of_accInstr rfl (fun _ => rfl) modRor_eq, ?_, ?_, ?_, ?_⟩
  iterate 4 exact .of_modifyInstr rfl (fun _ => rfl) modAsl_eq
  iterate 4 exact .of_modifyInstr rfl (fun _ => rfl) modLsr_eq
  iterate 4 exact .of_modifyInstr rfl (fun _ => rfl) modRol_eq
  iterate 4 exact .of_modifyInstr rfl (fun _ => rfl) modRor_eq

/-! ## A and C as a ring of nine bits -/

/-- The bit at place `k` of the ring, places counted modulo nine: the carry, then the bits of A from the highest to the lowest. -/
def Cpu.ring (c : Cpu) (k : Nat) : Bool := if k % 9 = 0 then c.c else c.a.getMsbD (k % 9 - 1)

theorem Cpu.ring_carry (c : Cpu) {k : Nat} (h : k % 9 = 0) : c.ring k = c.c := if_pos h

theorem Cpu.ring_bit (c : Cpu) {k j : Nat} (h : k % 9 = j + 1) : c.ring k = c.a.getMsbD j := by
  rw [Cpu.ring, h]; exact if_neg (Nat.succ_ne_zero j)

/-- A multiple of nine places is the whole ring, some times over, so that a CPU with the ring so turned has the same A and C. -/
theorem Cpu.eq_of_ring_turned {c d : Cpu} (n : Nat) (h : ∀ k, d.ring k = c.ring (k + 9 * n)) : d.a = c.a ∧ d.c = c.c := by
  have hcarry : d.c = c.c := by
    have := h 0
    rwa [d.ring_carry rfl, c.ring_carry (by omega)] at this
  have hbits : ∀ j < 8, d.a.getMsbD j = c.a.getMsbD j := fun j hj => by
    have := h (j + 1)
    rwa [d.ring_bit (j := j) (by omega), c.ring_bit (j := j) (by omega)] at this
  exact ⟨BitVec.eq_of_getMsbD_eq hbits, hcarry⟩

/-! ## The rotations turn the ring -/

theorem getMsbD_extractLsb_six_zero (m : Byte) {k : Nat} (hk : k < 7) :
    (m.extractLsb 6 0).getMsbD k = m.getMsbD (k + 1) := by
  have hplace : 8 - 1 - (max 6 0 - k) = k + 1 := by omega
  have hin : max 6 0 - k < 8 := by omega
  rw [BitVec.getMsbD_extractLsb, hplace, decide_eq_true hk, decide_eq_true hin, Bool.true_and, Bool.true_and]

theorem getMsbD_extractLsb_seven_one (m : Byte) {k : Nat} (hk : k < 7) :
    (m.extractLsb 7 1).getMsbD k = m.getMsbD k := by
  have hplace : 8 - 1 - (max 7 1 - k) = k := by omega
  have hin : max 7 1 - k < 8 := by omega
  rw [BitVec.getMsbD_extractLsb, hplace, decide_eq_true hk, decide_eq_true hin, Bool.true_and, Bool.true_and]

theorem modRol_carry (c : Cpu) (m : Byte) : (modRol c m).carry = m.getMsbD 0 := rfl

theorem modRor_carry (c : Cpu) (m : Byte) : (modRor c m).carry = m.getMsbD 7 := rfl

theorem getMsbD_modRol (c : Cpu) (m : Byte) {k : Nat} (hk : k < 8) :
    (modRol c m).result.getMsbD k = if k < 7 then m.getMsbD (k + 1) else c.c := by
  rw [modRol, BitVec.append_ofBool, BitVec.getMsbD_concat]
  split
  case isTrue h => exact getMsbD_extractLsb_six_zero m h
  case isFalse h => rw [decide_eq_true (by omega), Bool.true_and]

theorem getMsbD_modRor (c : Cpu) (m : Byte) {k : Nat} (hk : k < 8) :
    (modRor c m).result.getMsbD k = if k = 0 then c.c else m.getMsbD (k - 1) := by
  rw [modRor, BitVec.ofBool_append, BitVec.getMsbD_cast]
  cases k with
  | zero => exact BitVec.getMsbD_cons_zero
  | succ k => exact BitVec.getMsbD_cons_succ.trans (getMsbD_extractLsb_seven_one m (Nat.lt_of_succ_lt_succ hk))

/-- ROL A turns the ring by one place: the highest bit becomes the carry, the old carry comes in at the bottom (R153). -/
theorem Cpu.ring_rol (c : Cpu) (k : Nat) : (c.modifyA modRol).ring k = c.ring (k + 1) := by
  obtain h | ⟨j, hj, h⟩ | h :
      k % 9 = 0 ∨ (∃ j, j < 7 ∧ k % 9 = j + 1) ∨ k % 9 = 7 + 1 := by
    by_cases h : k % 9 = 0 ∨ k % 9 = 8
    · omega
    · exact .inr (.inl ⟨k % 9 - 1, by omega, by omega⟩)
  · rw [Cpu.ring_carry _ h, c.ring_bit (j := 0) (by omega), Cpu.modifyA_c, modRol_carry]
  · rw [Cpu.ring_bit _ h, c.ring_bit (j := j + 1) (by omega), Cpu.modifyA_a, getMsbD_modRol c c.a (by omega), if_pos hj]
  · rw [Cpu.ring_bit _ h, c.ring_carry (by omega), Cpu.modifyA_a, getMsbD_modRol c c.a (by decide), if_neg (by decide)]

/-- ROR A turns the ring by eight places, which is one place back (R154). -/
theorem Cpu.ring_ror (c : Cpu) (k : Nat) : (c.modifyA modRor).ring k = c.ring (k + 8) := by
  obtain h | h | ⟨j, hj, h⟩ :
      k % 9 = 0 ∨ k % 9 = 0 + 1 ∨ ∃ j, j < 7 ∧ k % 9 = j + 1 + 1 := by
    by_cases h : k % 9 ≤ 1
    · omega
    · exact .inr (.inr ⟨k % 9 - 2, by omega, by omega⟩)
  · rw [Cpu.ring_carry _ h, c.ring_bit (j := 7) (by omega), Cpu.modifyA_c, modRor_carry]
  · rw [Cpu.ring_bit _ h, c.ring_carry (by omega), Cpu.modifyA_a, getMsbD_modRor c c.a (by decide), if_pos rfl]
  · rw [Cpu.ring_bit _ h, c.ring_bit (j := j) (by omega), Cpu.modifyA_a, getMsbD_modRor c c.a (by omega),
      if_neg (Nat.succ_ne_zero j), Nat.add_sub_cancel]

/-- Settles O24: each ROL A turns the ring by one place and each ROR A by eight, so that each clause turns it by a multiple of
nine places. -/
theorem nineRotationsRestore : Obligations.NineRotationsRestore := by
  unfold Obligations.NineRotationsRestore
  intro s run
  have rol (u : State) (k : Nat) : (run .rolAcc u).cpu.ring k = u.cpu.ring (k + 1) := u.cpu.ring_rol k
  have ror (u : State) (k : Nat) : (run .rorAcc u).cpu.ring k = u.cpu.ring (k + 8) := u.cpu.ring_ror k
  have nineRol (k : Nat) : (Nat.repeat (run .rolAcc) 9 s).cpu.ring k = s.cpu.ring (k + 9 * 1) := by
    simp only [Nat.repeat, rol, Nat.add_assoc, Nat.reduceAdd, Nat.reduceMul]
  have nineRor (k : Nat) : (Nat.repeat (run .rorAcc) 9 s).cpu.ring k = s.cpu.ring (k + 9 * 8) := by
    simp only [Nat.repeat, ror, Nat.add_assoc, Nat.reduceAdd, Nat.reduceMul]
  have rorAfterRol (k : Nat) : (run .rorAcc (run .rolAcc s)).cpu.ring k = s.cpu.ring (k + 9 * 1) := by
    rw [ror, rol]
  have rolAfterRor (k : Nat) : (run .rolAcc (run .rorAcc s)).cpu.ring k = s.cpu.ring (k + 9 * 1) := by
    rw [rol, ror]
  obtain ⟨a1, c1⟩ := Cpu.eq_of_ring_turned 1 nineRol
  obtain ⟨a2, c2⟩ := Cpu.eq_of_ring_turned 8 nineRor
  obtain ⟨a3, c3⟩ := Cpu.eq_of_ring_turned 1 rorAfterRol
  obtain ⟨a4, c4⟩ := Cpu.eq_of_ring_turned 1 rolAfterRor
  exact ⟨a1, c1, a2, c2, a3, c3, a4, c4⟩

end Sys2Proof.Machine
end

section
/-! SUPPORT. Branches (R102, R160 to R168): O17. -/

namespace Sys2Proof.Machine

/-- A signed offset moves an address modulo 65,536 (R11, R102). -/
theorem add_sext_toNat (pc : Word) (b : Byte) :
    ((pc + sext b).toNat : Int) = ((pc.toNat : Int) + b.toInt) % 65536 := by
  rw [sext, BitVec.signExtend, BitVec.toNat_add, BitVec.toNat_ofInt]
  omega

/-- What a branch does, from its meaning as `branchInstr` (R160). -/
theorem RunsBranch.of_branchInstr {bytes : List Byte} {i : Instr} {b : Byte} {cond : Cpu → Bool} (encoded : encode i = bytes)
    (cycles : baseCycles i = 2) (meaning : ∀ s, exec i s = branchInstr cond b s) : RunsBranch bytes i b cond := by
  refine ⟨encoded, cycles, fun s => ⟨fun taken => ⟨s.cpu.pc + sext b, add_sext_toNat _ _, ?_⟩, fun notTaken => ?_⟩⟩
  · rw [meaning, branchInstr, if_pos taken]
  · rw [meaning, branchInstr, if_neg (Bool.eq_false_iff.1 notTaken)]

/-- Settles O17: each of the eight is a branch on its own condition. -/
theorem branchesRun : Obligations.BranchesRun := by
  unfold Obligations.BranchesRun
  intro b
  refine ⟨?_, ?_, ?_, ?_, ?_, ?_, ?_, ?_⟩
  all_goals exact .of_branchInstr rfl rfl fun _ => rfl

end Sys2Proof.Machine
end

section
/-! SUPPORT. The stack (R13, R21, R75): what pushing and pulling a word do, calls and returns, O19; the interrupt entry, O20; and
the round trips, O25. -/

namespace Sys2Proof.Machine

/-! ## Pushing and pulling words -/

/-- The byte `k` places above S in the stack page, `k` and S modulo 256. -/
def State.stackByte (s : State) (k : Byte) : Byte := s.ram.read (stackPlace (s.cpu.s + k))

theorem Memory.read_write_stackPlace (m : Memory) (a b v : Byte) :
    (m.write (stackPlace a) v).read (stackPlace b) = if b = a then v else m.read (stackPlace b) :=
  (m.read_write _ _ v).trans (ite_congr (propext ⟨stackPlace_inj, congrArg stackPlace⟩) (fun _ => rfl) fun _ => rfl)

theorem pushWord_eq (w : Word) (s : State) :
    pushWord w s = { s with
      ram := (s.ram.write (stackPlace s.cpu.s) (hiByte w)).write (stackPlace (s.cpu.s - 1)) (loByte w)
      cpu := { s.cpu with s := s.cpu.s - 2 } } := by
  have twoBelow : s.cpu.s - 1 - 1 = s.cpu.s - 2 := BitVec.sub_sub _ _ _
  rw [← twoBelow]; rfl

theorem pullWord_eq (s : State) :
    pullWord s = (wordOf (s.stackByte 2) (s.stackByte 1), s.withCpu { s.cpu with s := s.cpu.s + 2 }) := by
  have twoAbove : s.cpu.s + 1 + 1 = s.cpu.s + 2 := BitVec.add_assoc _ _ _
  rw [State.stackByte, ← twoAbove]; rfl

theorem returnFromInterrupt_eq (s : State) :
    returnFromInterrupt s = s.withCpu { s.cpu.setStatus (s.stackByte 1) with
      s := s.cpu.s + 3, pc := wordOf (s.stackByte 3) (s.stackByte 2) } := by
  have twoAbove : s.cpu.s + 1 + 1 = s.cpu.s + 2 := BitVec.add_assoc _ _ _
  have threeAbove : s.cpu.s + 1 + 2 = s.cpu.s + 3 := BitVec.add_assoc _ _ _
  simp only [returnFromInterrupt, pullWord_eq, State.stackByte, ← twoAbove, ← threeAbove]
  rfl

/-- Settles O19: the words pushed and pulled, byte by byte. -/
theorem callsAndReturnsRun : Obligations.CallsAndReturnsRun := by
  unfold Obligations.CallsAndReturnsRun
  refine ⟨fun _ => rfl, rfl, rfl, fun s w => ⟨?jsr, ?rts, ?rti⟩⟩
  case jsr => exact congrArg (fun t => Host.Outcome.next (t.setPc w)) (pushWord_eq (s.cpu.pc - 1) s)
  case rts => exact congrArg (fun r => Host.Outcome.next (r.2.setPc (r.1 + 1))) (pullWord_eq s)
  case rti => exact congrArg Host.Outcome.next (returnFromInterrupt_eq s)

/-! ## The interrupt entry (R387) -/

theorem takeInterrupt_eq (vec : Word) (n : Nat) (s : State) :
    takeInterrupt vec n s = { s with
      latch := .none
      ram := ((s.ram.write (stackPlace s.cpu.s) (hiByte s.cpu.pc)).write (stackPlace (s.cpu.s - 1)) (loByte s.cpu.pc)).write
        (stackPlace (s.cpu.s - 2)) (s.cpu.status s.cpu.brk)
      cpu := { s.cpu with s := s.cpu.s - 3, i := true, brk := false, pc := readVector s vec }
      clock := { s.clock with deferred := s.clock.deferred + n } } := by
  have threeBelow : s.cpu.s - 2 - 1 = s.cpu.s - 3 := BitVec.sub_sub _ _ _
  rw [takeInterrupt, pushWord_eq, ← threeBelow]; rfl

/-- With the break state set, the check takes the interrupt whatever I is, and the entry owes no cycles (R386, R393). -/
theorem resolveInterrupt_of_brk {s : State} (latched : s.latch = .irqBrk) (pending : s.cpu.brk = true) :
    resolveInterrupt s = takeInterrupt 0xFFFE 0 s := by
  simp only [resolveInterrupt, latched, pending, Bool.not_true, Bool.and_false, Bool.false_eq_true, if_false, if_true]

/-- IRQBRK takes an empty latch, and stays in one that holds it (R384). -/
theorem Latch.after_irqBrk {l : Latch} (h : l = .none ∨ l = .irqBrk) : l.after .irqBrk = .irqBrk := by
  rcases h with rfl | rfl <;> rfl

/-- Settles O20: BRK leaves IRQBRK in the latch and the break state set, so the check takes it. -/
theorem brkTakesInterrupt : Obligations.BrkTakesInterrupt := by
  unfold Obligations.BrkTakesInterrupt
  refine ⟨rfl, fun _ => rfl, fun s t hlatch h => ?_⟩
  obtain rfl : raiseInterrupt .irqBrk (s.withCpu { s.cpu with pc := s.cpu.pc + 1, brk := true }) = t :=
    Host.Outcome.next.inj h
  rw [resolveInterrupt_of_brk (Latch.after_irqBrk hlatch) rfl, takeInterrupt_eq]
  rfl

/-! ## Round trips -/

/-- A pull undoes a push but for the byte left in the stack page. -/
theorem pull_push_eq (v : Byte) (s : State) : pull (push v s) = (v, (push v s).withCpu s.cpu) :=
  Prod.ext (pull_push v s) (congrArg (push v s).withCpu (pull_push_s v s))

/-- A word pulled after it was pushed: the pushes reach different places, at every value of S. -/
theorem pullWord_pushWord (w : Word) (s : State) : pullWord (pushWord w s) = (w, (pushWord w s).withCpu s.cpu) := by
  have lo : (pushWord w s).stackByte 1 = loByte w := by
    rw [pushWord_eq, State.stackByte, Memory.read_write_stackPlace, if_pos (by bv_omega)]
  have hi : (pushWord w s).stackByte 2 = hiByte w := by
    rw [pushWord_eq, State.stackByte, Memory.read_write_stackPlace, if_neg (by bv_omega), Memory.read_write_stackPlace,
      if_pos (by bv_omega)]
  have pointer : (pushWord w s).cpu.s + 2 = s.cpu.s := by rw [pushWord_eq]; exact BitVec.sub_add_cancel _ _
  rw [pullWord_eq, lo, hi, wordOf_bytes, pointer]; rfl

/-- Loading a composed byte takes over the six flags it was composed of, and nothing else (R24, R25). -/
theorem Cpu.setStatus_status (c d : Cpu) (b : Bool) :
    c.setStatus (d.status b) = { c with n := d.n, v := d.v, d := d.d, i := d.i, z := d.z, c := d.c } := by
  obtain ⟨hn, hv, -, -, hd, hi, hz, hc⟩ := d.status_bits b
  rw [Cpu.setStatus, hn, hv, hd, hi, hz, hc]

/-- The three bytes an interrupt entry leaves above S: its three pushes reach different places, at every value of S. -/
theorem stackByte_takeInterrupt (vec : Word) (n : Nat) (s : State) :
    (takeInterrupt vec n s).stackByte 1 = s.cpu.status s.cpu.brk ∧
    (takeInterrupt vec n s).stackByte 2 = loByte s.cpu.pc ∧ (takeInterrupt vec n s).stackByte 3 = hiByte s.cpu.pc := by
  rw [takeInterrupt_eq]
  simp only [State.stackByte, Memory.read_write_stackPlace]
  refine ⟨if_pos (by bv_omega), ?_, ?_⟩
  · rw [if_neg (by bv_omega), if_pos (by bv_omega)]
  · rw [if_neg (by bv_omega), if_neg (by bv_omega), if_pos (by bv_omega)]

/-- The return undoes an entry but for the break state, which the entry cleared (R388). -/
theorem returnFromInterrupt_takeInterrupt_cpu (vec : Word) (n : Nat) (s : State) :
    (returnFromInterrupt (takeInterrupt vec n s)).cpu = { s.cpu with brk := false } := by
  obtain ⟨status, lo, hi⟩ := stackByte_takeInterrupt vec n s
  have pointer : (takeInterrupt vec n s).cpu.s + 3 = s.cpu.s := by rw [takeInterrupt_eq]; exact BitVec.sub_add_cancel _ _
  rw [returnFromInterrupt_eq, status, lo, hi, pointer, wordOf_bytes, Cpu.setStatus_status]; rfl

/-- Settles O25: each pull gives back what the push before it pushed. -/
theorem stackRoundTrips : Obligations.StackRoundTrips := by
  unfold Obligations.StackRoundTrips
  refine ⟨?pha, ?php, ?jsr, ?rti⟩
  case pha =>
    intro s t u hpush hpull
    obtain rfl : push s.cpu.a s = t := Host.Outcome.next.inj hpush
    rw [← Host.Outcome.next.inj hpull, pull_push_eq, Cpu.nz_eq_setNZ]; rfl
  case php =>
    intro s t u hpush hpull
    obtain rfl : push (s.cpu.status true) s = t := Host.Outcome.next.inj hpush
    rw [← Host.Outcome.next.inj hpull, pull_push_eq]
    exact Cpu.setStatus_status s.cpu s.cpu true
  case jsr =>
    intro s t u w hcall hreturn
    obtain rfl : (pushWord (s.cpu.pc - 1) s).setPc w = t := Host.Outcome.next.inj hcall
    have pulled : pullWord ((pushWord (s.cpu.pc - 1) s).setPc w) =
        (s.cpu.pc - 1, ((pushWord (s.cpu.pc - 1) s).withCpu s.cpu).setPc w) :=
      congrArg (fun r => (r.1, r.2.setPc w)) (pullWord_pushWord (s.cpu.pc - 1) s)
    have behind : s.cpu.pc - 1 + 1 = s.cpu.pc := BitVec.sub_add_cancel _ _
    rw [← Host.Outcome.next.inj hreturn, pulled, behind]; rfl
  case rti =>
    intro s u vec n h
    rw [← Host.Outcome.next.inj h]
    exact returnFromInterrupt_takeInterrupt_cpu vec n s

end Sys2Proof.Machine
end

section
/-! SUPPORT. The stack instructions as bus accesses (R13, R180 to R183): O21. -/

namespace Sys2Proof.Machine

/-- A push from its bus write at `0x0100 | S`, which goes through in every state. -/
theorem exists_memWrite_push (v : Byte) (s : State) :
    ∃ t, memWrite (stackAddress s.cpu.s) v s = .ok () t ∧ push v s = t.withCpu { s.cpu with s := s.cpu.s - 1 } :=
  ⟨_, memWrite_stack s.cpu.s v s, rfl⟩

/-- Settles O21: a push is its bus write and a pull its bus read, and neither can fail in the stack page. -/
theorem stackInstructionsRun : Obligations.StackInstructionsRun := by
  unfold Obligations.StackInstructionsRun
  refine ⟨rfl, rfl, rfl, rfl, fun s => ⟨?pha, ?php, (pull s).1, memRead_stack (s.cpu.s + 1) s, ?pla, ?plp⟩⟩
  case pha =>
    obtain ⟨t, written, pushed⟩ := exists_memWrite_push s.cpu.a s
    exact ⟨t, written, congrArg Host.Outcome.next pushed⟩
  case php =>
    obtain ⟨t, written, pushed⟩ := exists_memWrite_push (s.cpu.status true) s
    exact ⟨t, written, congrArg Host.Outcome.next pushed⟩
  case pla => rw [Cpu.nz_eq_setNZ]; rfl
  case plp => rfl

end Sys2Proof.Machine
end

section
/-! SUPPORT. The PPU's registers on the bus (R205 to R212): the bit fields that a write puts together; O36 and O37. -/

namespace Sys2Proof.Machine

/-! ## Bit fields put together -/

/-- A field that lies above the lowest piece. -/
theorem extractLsb'_append_above {i k : Nat} (a : BitVec i) (c : BitVec k) (n len : Nat) :
    (a ++ c).extractLsb' (n + k) len = a.extractLsb' n len := by
  rw [BitVec.extractLsb'_append_eq_of_le (by omega), Nat.add_sub_cancel]

/-- Three fields put together, taken apart again. -/
theorem extractLsb'_append_three {i j k : Nat} (a : BitVec i) (b : BitVec j) (c : BitVec k) :
    (a ++ b ++ c).extractLsb' (j + k) i = a ∧ (a ++ b ++ c).extractLsb' k j = b ∧ (a ++ b ++ c).extractLsb' 0 k = c := by
  refine ⟨(extractLsb'_append_above _ c j i).trans BitVec.extractLsb'_append_eq_left, ?_, BitVec.extractLsb'_append_eq_right⟩
  have above := extractLsb'_append_above (a ++ b) c 0 j
  rw [Nat.zero_add] at above
  exact above.trans BitVec.extractLsb'_append_eq_right

/-! ## Status read (R205) -/

/-- The status byte: three flags over five bits. -/
theorem statusBits (vbl s0 ovf : Bool) (low : BitVec 5) :
    let r := BitVec.ofBool vbl ++ BitVec.ofBool s0 ++ BitVec.ofBool ovf ++ low
    r.getLsbD 7 = vbl ∧ r.getLsbD 6 = s0 ∧ r.getLsbD 5 = ovf ∧ r.extractLsb 4 0 = low := by
  refine ⟨?_, ?_, ?_, BitVec.extractLsb'_append_eq_right⟩ <;> simp only [BitVec.getLsbD_append] <;> simp

/-- What a status read does to the state: VBL and w are cleared, the inhibit is set or a pending NMI taken back at the two
positions of the race with VBlank, and a byte is drawn. -/
theorem readPpuStatus_snd (s : State) :
    (readPpuStatus s).2 = { s with
      ppu := { s.ppu with
        vbl := false, w := false
        nmiInhibit := if s.ppu.scanline = 241 ∧ s.ppu.pixel = 0 then true else s.ppu.nmiInhibit }
      latch := if s.ppu.scanline = 241 ∧ s.ppu.pixel = 1 ∧ s.latch = .nmi then .none else s.latch
      draws := s.draws + 1 } := by
  have at241 (n : Nat) : (decide (s.ppu.scanline = Config.vblankBegin) && s.ppu.pixel == n) =
      decide (s.ppu.scanline = 241 ∧ s.ppu.pixel = n) := (Bool.decide_and _ _).symm
  have inhibit : (s.ppu.nmiInhibit || (decide (s.ppu.scanline = Config.vblankBegin) && s.ppu.pixel == 0)) =
      if s.ppu.scanline = 241 ∧ s.ppu.pixel = 0 then true else s.ppu.nmiInhibit := by
    rw [at241]
    split
    case isTrue h => rw [decide_eq_true h, Bool.or_true]
    case isFalse h => rw [decide_eq_false h, Bool.or_false]
  have latch : s.latch.after
        (if decide (s.ppu.scanline = Config.vblankBegin) && s.ppu.pixel == 1 then .cancelNmi else .none) =
      if s.ppu.scanline = 241 ∧ s.ppu.pixel = 1 ∧ s.latch = .nmi then .none else s.latch := by
    simp only [at241, ← and_assoc]
    by_cases h : s.ppu.scanline = 241 ∧ s.ppu.pixel = 1
    · rw [if_pos (decide_eq_true h), Latch.after_cancel]; simp only [h, true_and]
    · rw [if_neg (mt of_decide_eq_true h), if_neg (fun e => h e.1), Latch.after_none]
  rw [← inhibit, ← latch]; rfl

/-- Settles O36: the status byte's bits and what the read does. -/
theorem ppuStatusRead : Obligations.PpuStatusRead := by
  unfold Obligations.PpuStatusRead
  intro a s ha ha' h2
  rw [memRead_ppuRegs ha (by omega), h2, ← readPpuStatus_snd]
  exact ⟨(readPpuStatus s).1, rfl, statusBits _ _ _ _⟩

/-! ## Register writes (R206 to R212) -/

theorem writeScroll_first {p : Ppu} (h : p.w = false) (v : Byte) :
    p.writeScroll v = { p with t := p.t.extractLsb 14 5 ++ v.extractLsb 7 3, x := v.extractLsb 2 0, w := true } :=
  if_neg (Bool.eq_false_iff.1 h)

theorem writeScroll_second {p : Ppu} (h : p.w = true) (v : Byte) :
    p.writeScroll v = { p with
      t := v.extractLsb 2 0 ++ p.t.extractLsb 11 10 ++ v.extractLsb 7 3 ++ p.t.extractLsb 4 0, w := false } :=
  if_pos h

theorem writeAddr_first {p : Ppu} (h : p.w = false) (v : Byte) :
    p.writeAddr v = { p with t := 0#1 ++ v.extractLsb 5 0 ++ p.t.extractLsb 7 0, w := true } :=
  if_neg (Bool.eq_false_iff.1 h)

theorem writeAddr_second {p : Ppu} (h : p.w = true) (v : Byte) :
    p.writeAddr v = { p with t := p.t.extractLsb 14 8 ++ v, v := p.t.extractLsb 14 8 ++ v, w := false } :=
  if_pos h

/-- Settles O37: the handler of each register; the fields of a byte and of `t` that the write puts together. -/
theorem ppuRegisterWrites : Obligations.PpuRegisterWrites := by
  unfold Obligations.PpuRegisterWrites
  intro a v s ha ha'
  have write : ∀ {r}, a.toNat % 8 = r → memWrite a v s = ppuRegWrite r v s :=
    fun h => h ▸ memWrite_ppuRegs ha (by omega) v s
  have written : ∀ {p q : Ppu}, p = q → Res.ok () (s.withPpu p) = .ok () (s.withPpu q) := fun h => h ▸ rfl
  refine ⟨fun h => ?ctrl, fun h => write h, fun h => write h, fun h => write h, fun h => write h, fun h hw => ?scrollX,
    fun h hw => ?scrollY, fun h hw => ?addrHigh, fun h hw => ?addrLow⟩
  case ctrl => exact ⟨_, write h, extractLsb'_append_three ..⟩
  case scrollX =>
    exact ⟨_, (write h).trans (written (writeScroll_first hw v)), BitVec.extractLsb'_append_eq_left,
      BitVec.extractLsb'_append_eq_right⟩
  case scrollY =>
    obtain ⟨fine, nametable, coarse⟩ :=
      extractLsb'_append_three (v.extractLsb 2 0) (s.ppu.t.extractLsb 11 10) (v.extractLsb 7 3)
    exact ⟨_, (write h).trans (written (writeScroll_second hw v)), (extractLsb'_append_above _ _ 7 3).trans fine,
      (extractLsb'_append_above _ _ 5 2).trans nametable, (extractLsb'_append_above _ _ 0 5).trans coarse,
      BitVec.extractLsb'_append_eq_right⟩
  case addrHigh =>
    obtain ⟨top, high, low⟩ := extractLsb'_append_three 0#1 (v.extractLsb 5 0) (s.ppu.t.extractLsb 7 0)
    exact ⟨_, (write h).trans (written (writeAddr_first hw v)),
      (BitVec.getLsbD_eq_extractLsb' _ 14).trans (congrArg (· == 1#1) top), high, low⟩
  case addrLow =>
    exact ⟨_, (write h).trans (written (writeAddr_second hw v)), BitVec.extractLsb'_append_eq_left,
      BitVec.extractLsb'_append_eq_right⟩

end Sys2Proof.Machine
end

section
/-! SUPPORT. The PPU's tick away from the picture (R215 to R217): the advance of the position, O39; the begin and the end of
VBlank, O40. -/

namespace Sys2Proof.Machine

/-! ## The advance (R215) -/

/-- The next tick omits pixel 337 of the pre-render line (R215). -/
def SkipsPixel (u : Ppu) : Prop := u.scanline = -1 ∧ u.pixel = 336 ∧ u.odd = true ∧ u.mask.getLsbD 3 = true

theorem advancePosition_skip {u : Ppu} (h : SkipsPixel u) : advancePosition u = { u with pixel := 338 } := by
  obtain ⟨hline, hpixel, hodd, hbg⟩ := h
  simp [advancePosition, Ppu.background, Config.pixelsPerScanline, hline, hpixel, hodd, hbg]

theorem advancePosition_within {u : Ppu} (hskip : ¬ SkipsPixel u) (h : u.pixel ≠ 340) :
    advancePosition u = { u with pixel := u.pixel + 1 } := by
  have next : (if u.scanline = -1 ∧ u.pixel = 336 ∧ u.odd ∧ u.background then 338 else u.pixel + 1) = u.pixel + 1 :=
    if_neg hskip
  simp [advancePosition, next, Config.pixelsPerScanline, h]

theorem advancePosition_lineEnd {u : Ppu} (h : u.pixel = 340) :
    advancePosition u =
      if u.scanline = 260 then { u with pixel := 0, scanline := -1, odd := !u.odd }
      else { u with pixel := 0, scanline := u.scanline + 1 } := by
  have last : u.scanline + 1 = 261 ↔ u.scanline = 260 := by omega
  simp [advancePosition, Config.pixelsPerScanline, Config.totalScanlines, h, last]

/-- On the first 336 pixels of any line a tick advances the pixel alone. -/
theorem advancePosition_of_lt {u : Ppu} (h : u.pixel < 336) : advancePosition u = { u with pixel := u.pixel + 1 } :=
  advancePosition_within (fun skip => by have := skip.2.1; omega) (by omega)

/-- The position and the parity after a tick, from a position in range (R215). -/
def nextPosition (u : Ppu) : Int × Nat × Bool :=
  if u.scanline = -1 ∧ u.pixel = 336 ∧ u.odd = true ∧ u.mask.getLsbD 3 = true then (-1, 338, true)
  else if u.pixel < 340 then (u.scanline, u.pixel + 1, u.odd)
  else if u.scanline < 260 then (u.scanline + 1, 0, u.odd)
  else (-1, 0, !u.odd)

theorem advancePosition_eq {u : Ppu} (hline : u.scanline ≤ 260) (hpixel : u.pixel ≤ 340) :
    advancePosition u = { u with
      scanline := (nextPosition u).1, pixel := (nextPosition u).2.1, odd := (nextPosition u).2.2 } := by
  unfold nextPosition
  split
  case isTrue skip =>
    rw [advancePosition_skip skip]
    simp [skip.1.symm, skip.2.2.1.symm]
  case isFalse noSkip =>
    split
    case isTrue within => rw [advancePosition_within noSkip (by omega)]
    case isFalse lineEnd =>
      rw [advancePosition_lineEnd (by omega)]
      split
      case isTrue last => rw [if_neg (by omega)]
      case isFalse notLast => rw [if_pos (by omega)]

/-- The events of a tick leave all alone on which the advance depends. -/
theorem nextPosition_tickEvents (s : State) : nextPosition (tickEvents s).ppu = nextPosition s.ppu := by
  obtain ⟨hline, hpixel, hodd, hmask, -⟩ := tickEvents_position s
  unfold nextPosition
  rw [hline, hpixel, hodd, hmask]

theorem ppuTick_eq {s : State} (hline : s.ppu.scanline ≤ 260) (hpixel : s.ppu.pixel ≤ 340) :
    ppuTick s = (tickEvents s).withPpu { (tickEvents s).ppu with
      scanline := (nextPosition s.ppu).1, pixel := (nextPosition s.ppu).2.1, odd := (nextPosition s.ppu).2.2 } := by
  obtain ⟨sameLine, samePixel, -⟩ := tickEvents_position s
  rw [ppuTick, advancePosition_eq (by omega) (by omega), nextPosition_tickEvents]

theorem visible_iff {u : Ppu} :
    (u.visibleLine && decide (u.pixel ≤ 255)) = true ↔ 0 ≤ u.scanline ∧ u.scanline ≤ 239 ∧ u.pixel ≤ 255 := by
  simp [Ppu.visibleLine, and_assoc]

theorem tickEvents_idle {s : State} (hvisible : ¬ (0 ≤ s.ppu.scanline ∧ s.ppu.scanline ≤ 239 ∧ s.ppu.pixel ≤ 255))
    (hbegin : ¬ (s.ppu.scanline = 241 ∧ s.ppu.pixel = 0)) (hend : ¬ (s.ppu.scanline = -1 ∧ s.ppu.pixel = 0)) :
    tickEvents s = s :=
  (if_neg hbegin).trans ((if_neg hend).trans (if_neg (mt visible_iff.1 hvisible)))

/-- Settles O39: the events leave the position to the advance, and there are none at an idle position. -/
theorem tickAdvances : Obligations.TickAdvances := by
  unfold Obligations.TickAdvances
  intro s _ hline hpixel
  rw [ppuTick_eq hline hpixel]
  exact ⟨(nextPosition s.ppu).1, (nextPosition s.ppu).2.1, (nextPosition s.ppu).2.2, rfl, rfl, rfl, rfl,
    fun hvisible hbegin hend => by rw [tickEvents_idle hvisible hbegin hend]⟩

/-! ## VBlank (R216, R217) -/

/-- The begin of VBlank, by the inhibit: an inhibited one sets no flag and raises nothing. -/
theorem vblankBeginEvent_eq (s : State) : vblankBeginEvent s = { s with
    ppu := { s.ppu with nmiInhibit := false, vbl := if s.ppu.nmiInhibit = false then true else s.ppu.vbl }
    latch := if s.ppu.nmiInhibit = false ∧ s.ppu.ctrl.getLsbD 7 = true ∧ s.latch ≠ .reset then .nmi else s.latch
    out := { s.out with frames := s.out.frames ++ [{ fb := s.ppu.fb, mask := s.ppu.mask }] } } := by
  have vbl : (s.ppu.vbl || !s.ppu.nmiInhibit) = if s.ppu.nmiInhibit = false then true else s.ppu.vbl := by
    cases s.ppu.nmiInhibit
    · exact Bool.or_true _
    · exact Bool.or_false _
  have raised : s.latch.after .nmi = if s.latch ≠ .reset then .nmi else s.latch := by cases s.latch <;> rfl
  have latch : s.latch.after (if !s.ppu.nmiInhibit && s.ppu.nmiEnabled then .nmi else .none) =
      if s.ppu.nmiInhibit = false ∧ s.ppu.ctrl.getLsbD 7 = true ∧ s.latch ≠ .reset then .nmi else s.latch := by
    have offered : (!s.ppu.nmiInhibit && s.ppu.nmiEnabled) = true ↔
        s.ppu.nmiInhibit = false ∧ s.ppu.ctrl.getLsbD 7 = true := by
      rw [Bool.and_eq_true, Bool.not_eq_true']; rfl
    simp only [← and_assoc]
    by_cases h : s.ppu.nmiInhibit = false ∧ s.ppu.ctrl.getLsbD 7 = true
    · rw [if_pos (offered.2 h), raised]; simp only [h, true_and]
    · rw [if_neg (mt offered.1 h), if_neg (fun e => h e.1)]; rfl
  rw [← vbl, ← latch]; rfl

/-- Settles O40: each event, and the advance by one pixel. -/
theorem vBlankEvents : Obligations.VBlankEvents := by
  unfold Obligations.VBlankEvents
  refine fun s => ⟨fun hline hpixel => ?_, fun hline hpixel => ?_⟩
  · have hp : (vblankBeginEvent s).ppu.pixel = 0 := hpixel
    rw [ppuTick, tickEvents_vblankBegin hline hpixel, advancePosition_of_lt (by omega), hp, vblankBeginEvent_eq]; rfl
  · have hp : (vblankEndEvent s).ppu.pixel = 0 := hpixel
    rw [ppuTick, tickEvents_vblankEnd hline hpixel, advancePosition_of_lt (by omega), hp]; rfl

end Sys2Proof.Machine
end

section
/-! SUPPORT. The scroll registers at a visible pixel (R218, R219, R225, R226): the fields of an address, the increments, the
`attr` cache and the reload; O41. -/

namespace Sys2Proof.Machine

/-! ## The fields of an address (R33) -/

/-- The fields of an address put together of its five. -/
theorem vramAddr_fields (f : BitVec 3) (m n : BitVec 1) (r c : BitVec 5) :
    fineY (vramAddr f m n r c) = f ∧ ntY (vramAddr f m n r c) = m ∧ ntX (vramAddr f m n r c) = n ∧
    coarseY (vramAddr f m n r c) = r ∧ coarseX (vramAddr f m n r c) = c := by
  obtain ⟨hf, hm, hn⟩ := extractLsb'_append_three f m n
  refine ⟨?_, ?_, ?_, ?_, BitVec.extractLsb'_append_eq_right⟩
  · exact (extractLsb'_append_above _ c 7 3).trans ((extractLsb'_append_above _ r 2 3).trans hf)
  · exact (extractLsb'_append_above _ c 6 1).trans ((extractLsb'_append_above _ r 1 1).trans hm)
  · exact (extractLsb'_append_above _ c 5 1).trans ((extractLsb'_append_above _ r 0 1).trans hn)
  · exact (extractLsb'_append_above _ c 0 5).trans BitVec.extractLsb'_append_eq_right

/-- An address is put together of its own fields. -/
theorem vramAddr_self (v : BitVec 15) : vramAddr (fineY v) (ntY v) (ntX v) (coarseY v) (coarseX v) = v := by
  unfold vramAddr fineY ntY ntX coarseY coarseX BitVec.extractLsb
  simp only [BitVec.extractLsb'_append_extractLsb'_eq_extractLsb']
  exact BitVec.extractLsb'_eq_self

/-! ## The increments (R225, R226) -/

theorem bit_not_eq_add_one : ∀ b : BitVec 1, ~~~b = b + 1 := by decide

theorem incCoarseX_fields (v : BitVec 15) :
    fineY (incCoarseX v) = fineY v ∧ ntY (incCoarseX v) = ntY v ∧ coarseY (incCoarseX v) = coarseY v ∧
    (coarseX v = 31 → coarseX (incCoarseX v) = 0 ∧ ntX (incCoarseX v) = ntX v + 1) ∧
    (coarseX v ≠ 31 → coarseX (incCoarseX v) = coarseX v + 1 ∧ ntX (incCoarseX v) = ntX v) := by
  unfold incCoarseX
  split
  case isTrue wraps =>
    obtain ⟨hf, hm, hn, hr, hc⟩ := vramAddr_fields (fineY v) (ntY v) (~~~ntX v) (coarseY v) 0
    exact ⟨hf, hm, hr, fun _ => ⟨hc, hn.trans (bit_not_eq_add_one _)⟩, fun h => absurd wraps h⟩
  case isFalse within =>
    obtain ⟨hf, hm, hn, hr, hc⟩ := vramAddr_fields (fineY v) (ntY v) (ntX v) (coarseY v) (coarseX v + 1)
    exact ⟨hf, hm, hr, fun h => absurd h within, fun _ => ⟨hc, hn⟩⟩

theorem fineY_lt_seven_iff (v : BitVec 15) : (fineY v).toNat < 7 ↔ fineY v ≠ 7 := by
  generalize fineY v = f
  revert f; decide

theorem incY_within {v : BitVec 15} (h : fineY v ≠ 7) :
    incY v = vramAddr (fineY v + 1) (ntY v) (ntX v) (coarseY v) (coarseX v) := if_pos ((fineY_lt_seven_iff v).2 h)

theorem incY_screenEnd {v : BitVec 15} (h : fineY v = 7) (h29 : coarseY v = 29) :
    incY v = vramAddr 0 (~~~ntY v) (ntX v) 0 (coarseX v) :=
  (if_neg fun hlt => (fineY_lt_seven_iff v).1 hlt h).trans (if_pos h29)

/-- After the last row of a tile coarse Y goes up; from 31 it wraps, and the nametable stays. -/
theorem incY_tileEnd {v : BitVec 15} (h : fineY v = 7) (h29 : coarseY v ≠ 29) :
    incY v = vramAddr 0 (ntY v) (ntX v) (coarseY v + 1) (coarseX v) := by
  unfold incY
  rw [if_neg fun hlt => (fineY_lt_seven_iff v).1 hlt h, if_neg h29]
  split
  case isTrue h31 => rw [h31]; rfl
  case isFalse => rfl

theorem incY_fields (v : BitVec 15) :
    fineY (incY v) = fineY v + 1 ∧ ntX (incY v) = ntX v ∧ coarseX (incY v) = coarseX v ∧
    (fineY v ≠ 7 → coarseY (incY v) = coarseY v ∧ ntY (incY v) = ntY v) ∧
    (fineY v = 7 → coarseY v = 29 → coarseY (incY v) = 0 ∧ ntY (incY v) = ntY v + 1) ∧
    (fineY v = 7 → coarseY v ≠ 29 → coarseY (incY v) = coarseY v + 1 ∧ ntY (incY v) = ntY v) := by
  by_cases h : fineY v = 7
  · have wraps : 0 = fineY v + 1 := by rw [h]; rfl
    by_cases h29 : coarseY v = 29
    · rw [incY_screenEnd h h29]
      obtain ⟨hf, hm, hn, hr, hc⟩ := vramAddr_fields 0 (~~~ntY v) (ntX v) 0 (coarseX v)
      exact ⟨hf.trans wraps, hn, hc, fun hne => absurd h hne, fun _ _ => ⟨hr, hm.trans (bit_not_eq_add_one _)⟩,
        fun _ hne => absurd h29 hne⟩
    · rw [incY_tileEnd h h29]
      obtain ⟨hf, hm, hn, hr, hc⟩ := vramAddr_fields 0 (ntY v) (ntX v) (coarseY v + 1) (coarseX v)
      exact ⟨hf.trans wraps, hn, hc, fun hne => absurd h hne, fun _ he => absurd he h29, fun _ _ => ⟨hr, hm⟩⟩
  · rw [incY_within h]
    obtain ⟨hf, hm, hn, hr, hc⟩ := vramAddr_fields (fineY v + 1) (ntY v) (ntX v) (coarseY v) (coarseX v)
    exact ⟨hf, hn, hc, fun _ => ⟨hr, hm⟩, fun he => absurd he h, fun he => absurd he h⟩

/-! ## The `attr` cache (R219) -/

theorem attrEntry_toNat (ciram : Memory) (n row col : Nat) :
    (attrEntry ciram n row col).toNat =
      (ciram.read (n * 0x400 + 0x3C0 + row / 4 * 8 + col / 4)).toNat / 2 ^ (row / 2 % 2 * 4 + col / 2 % 2 * 2) % 4 := by
  have quadrant (k b : Nat) : (if k / 2 % 2 = 1 then b else 0) = k / 2 % 2 * b := by
    rcases Nat.mod_two_eq_zero_or_one (k / 2) with h | h <;> simp [h]
  rw [attrEntry, quadrant, quadrant, BitVec.toNat_ofNat, Nat.shiftRight_eq_div_pow]

theorem get_computeAttrCache (ciram : Memory) {n row col : Nat} (hn : n < 2) (hrow : row < 32) (hcol : col < 32) :
    Table.get 0 (computeAttrCache ciram) (n * 1024 + row * 32 + col) = attrEntry ciram n row col := by
  have entry := Table.get_ofValues (0 : BitVec 2) 0
    ((List.range 2048).map fun k => attrEntry ciram (k / 1024) (k / 32 % 32) (k % 32)) (n * 1024 + row * 32 + col)
  rw [Nat.zero_add] at entry
  rw [computeAttrCache, entry, List.getD_eq_getElem?_getD, List.getElem?_map, List.getElem?_range (by omega)]
  have table : (n * 1024 + row * 32 + col) / 1024 = n := by omega
  have tileRow : (n * 1024 + row * 32 + col) / 32 % 32 = row := by omega
  have tileCol : (n * 1024 + row * 32 + col) % 32 = col := by omega
  simp only [Option.map_some, Option.getD_some, table, tileRow, tileCol]

/-! ## The reload (R218) -/

/-- The `attr` cache from which a visible pixel is rendered: recomputed at (0, 0) with rendering enabled (R218, R219). -/
def attrCacheAt (u : Ppu) : Table (BitVec 2) :=
  if u.pixel = 0 ∧ u.scanline = 0 ∧ u.rendering = true then computeAttrCache u.ciram else u.attr

/-- The PPU from which a visible pixel is rendered (R218). -/
def reloaded (u : Ppu) : Ppu := if u.pixel = 0 ∧ u.rendering = true then scrollReload u else u

theorem rendering_iff (u : Ppu) : u.rendering = true ↔ u.mask.getLsbD 3 = true ∨ u.mask.getLsbD 4 = true := by
  rw [Ppu.rendering, Bool.or_eq_true]; rfl

theorem reloaded_eq {u : Ppu} {y p : Nat} {v0 : BitVec 15} (hline : u.scanline = y) (hpixel : u.pixel = p)
    (hv0 : RendersFrom u y p v0) : reloaded u = { u with v := v0, attr := attrCacheAt u } := by
  unfold RendersFrom at hv0
  unfold reloaded attrCacheAt
  by_cases reloads : u.pixel = 0 ∧ u.rendering = true
  · obtain ⟨hp, hr⟩ := reloads
    rw [if_pos ⟨hpixel.symm.trans hp, (rendering_iff u).1 hr⟩] at hv0
    obtain ⟨hntX, hcoarseX, hfineY, hntY, hcoarseY⟩ := hv0
    rw [if_pos ⟨hp, hr⟩, scrollReload, ← vramAddr_self v0, hntX, hcoarseX, hfineY, hntY, hcoarseY]
    by_cases first : u.scanline = 0
    · have hy : y = 0 := by omega
      have recomputed : u.pixel = 0 ∧ u.scanline = 0 ∧ u.rendering = true := ⟨hp, first, hr⟩
      simp only [if_pos first, if_pos hy, if_pos recomputed]
    · have hy : y ≠ 0 := by omega
      have kept : ¬ (u.pixel = 0 ∧ u.scanline = 0 ∧ u.rendering = true) := fun h => first h.2.1
      simp only [if_neg first, if_neg hy, if_neg kept]
  · rw [if_neg (fun h => reloads ⟨hpixel.trans h.1, (rendering_iff u).2 h.2⟩)] at hv0
    rw [hv0, if_neg reloads, if_neg (fun h => reloads ⟨h.1, h.2.2⟩)]

/-- The state from which a visible pixel is rendered at the address `v0`. -/
def renderedFrom (s : State) (v0 : BitVec 15) : State := s.withPpu { s.ppu with v := v0, attr := attrCacheAt s.ppu }

theorem tickEvents_visible {s : State} {y p : Nat} {v0 : BitVec 15} (hline : s.ppu.scanline = y) (hy : y ≤ 239)
    (hpixel : s.ppu.pixel = p) (hp : p ≤ 255) (hv0 : RendersFrom s.ppu y p v0) :
    tickEvents s = s.withPpu (scrollAfterPixel (drawPixel (renderedFrom s v0) y p) p) := by
  have events : tickEvents s =
      let s1 := if s.ppu.pixel == 0 && s.ppu.rendering then s.withPpu (scrollReload s.ppu) else s
      s1.withPpu (scrollAfterPixel (drawPixel s1 s1.ppu.scanline.toNat s1.ppu.pixel) s1.ppu.pixel) := by
    unfold tickEvents Config.vblankBegin
    rw [if_neg (by omega), if_neg (by omega), if_pos (visible_iff.2 (by omega))]
  have start : (if s.ppu.pixel == 0 && s.ppu.rendering then s.withPpu (scrollReload s.ppu) else s) = renderedFrom s v0 := by
    rw [renderedFrom, ← reloaded_eq hline hpixel hv0, reloaded]
    simp only [Bool.and_eq_true, beq_iff_eq]
    split <;> rfl
  have line : (renderedFrom s v0).ppu.scanline.toNat = y := by simp [renderedFrom, hline]
  have pixel : (renderedFrom s v0).ppu.pixel = p := hpixel
  rw [events, start]
  dsimp only
  rw [line, pixel]; rfl

/-- The tick at a visible pixel, from the address `v0` (R218, R221 to R226): it draws, scrolls and advances. -/
theorem ppuTick_visible {s : State} {y p : Nat} {v0 : BitVec 15} (hline : s.ppu.scanline = y) (hy : y ≤ 239)
    (hpixel : s.ppu.pixel = p) (hp : p ≤ 255) (hv0 : RendersFrom s.ppu y p v0) :
    ppuTick s = s.withPpu { scrollAfterPixel (drawPixel (renderedFrom s v0) y p) p with pixel := p + 1 } := by
  have pixel : (tickEvents s).ppu.pixel = p := (tickEvents_position s).2.1.trans hpixel
  rw [ppuTick, advancePosition_of_lt (by omega), pixel, tickEvents_visible hline hy hpixel hp hv0]; rfl

/-- Settles O41: the increments by field; then the tick by its reload, its increments and the `attr` cache. -/
theorem scrollRules : Obligations.ScrollRules := by
  unfold Obligations.ScrollRules
  refine ⟨incCoarseX_fields, incY_fields, fun s y p v0 v1 hline hy hpixel hp hv0 hv1 => ?_⟩
  rw [ppuTick_visible hline hy hpixel hp hv0]
  refine ⟨?v, rfl, rfl, rfl, fun hp0 hy0 rendering n row col hn hrow hcol => ?cache, fun h => ?kept⟩
  case v =>
    subst hv1
    simp only [State.withPpu_ppu, scrollAfterPixel, Bool.and_eq_true, beq_iff_eq]
    rfl
  case cache =>
    have cache : attrCacheAt s.ppu = computeAttrCache s.ppu.ciram :=
      if_pos ⟨hpixel.trans hp0, by omega, (rendering_iff _).2 rendering⟩
    rw [← attrEntry_toNat, ← get_computeAttrCache _ hn hrow hcol, ← cache]; rfl
  case kept =>
    refine if_neg fun ⟨hp0, hy0, rendering⟩ => ?_
    rcases h with h | h | ⟨noBackground, noSprites⟩
    · exact h (hpixel.symm.trans hp0)
    · exact h (by omega)
    · exact ((rendering_iff _).1 rendering).elim (Bool.eq_false_iff.1 noBackground) (Bool.eq_false_iff.1 noSprites)

end Sys2Proof.Machine
end

section
/-! SUPPORT. The visible pixel (R221 to R224): the background pixel and the sprite pixel as numbers, the multiplexer's choice and
the sprite-zero hit; O42. -/

namespace Sys2Proof.Machine

/-- A layer shows at column `p`: it is enabled, and not cut off in the left eight columns (R221, R222). -/
theorem layerShown_iff {enabled left : Bool} {p : Nat} :
    (enabled && (decide (8 ≤ p) || left)) = true ↔ enabled = true ∧ (8 ≤ p ∨ left = true) := by
  rw [Bool.and_eq_true, Bool.or_eq_true, decide_eq_true_iff]

/-! ## The background pixel (R221) -/

/-- The nametable through the mirroring that an address selects (R73, R221). -/
def tableAt (s : State) (v : BitVec 15) : Nat := mirrorOf s.mirroring (v.toNat / 0x400 % 4)

theorem ntSelect_toNat (v : BitVec 15) : (v.extractLsb 11 10).toNat = v.toNat / 0x400 % 4 := by
  rw [BitVec.extractLsb_toNat, Nat.shiftRight_eq_div_pow]

/-- The tile byte is at the address's low ten bits in the nametable that its next two bits select (R73, R221). -/
theorem readNametable_tile (s : State) (v : BitVec 15) :
    readNametable s (0x2000 + (v.extractLsb 11 0).toNat) = s.ppu.ciram.read (tableAt s v * 0x400 + v.toNat % 0x400) := by
  have low : (v.extractLsb 11 0).toNat = v.toNat % 0x1000 := by rw [BitVec.extractLsb_toNat, Nat.shiftRight_zero]
  have table : (0x2000 + v.toNat % 0x1000) % 0x1000 / 0x400 = v.toNat / 0x400 % 4 := by omega
  have place : (0x2000 + v.toNat % 0x1000) % 0x400 = v.toNat % 0x400 := by omega
  rw [readNametable, ciramPlace_eq, low, table, place, tableAt]

/-- The pattern address of the tile's fine row (R221). -/
def tileRowAddr (s : State) (v : BitVec 15) : Nat :=
  (if s.ppu.ctrl.getLsbD 4 then 0x1000 else 0) +
    (s.ppu.ciram.read (tableAt s v * 0x400 + v.toNat % 0x400)).toNat * 16 + (fineY v).toNat

/-- The pattern value of the background at column `p`, 0 where it does not show (R221). -/
def backgroundValue (s : State) (v : BitVec 15) (p : Nat) : Nat :=
  let bit := 7 - (s.ppu.x.toNat + p) % 8
  if s.ppu.mask.getLsbD 3 = true ∧ (8 ≤ p ∨ s.ppu.mask.getLsbD 1 = true) then
    (if (readChr s (tileRowAddr s v + 8)).getLsbD bit then 2 else 0) +
      (if (readChr s (tileRowAddr s v)).getLsbD bit then 1 else 0)
  else 0

/-- The background's palette index at pattern value `bg`, from the `attr` cache (R221). -/
def backgroundIndex (s : State) (v : BitVec 15) (bg : Nat) : Nat :=
  (Table.get 0 (attrCacheAt s.ppu) (tableAt s v * 1024 + (coarseY v).toNat * 32 + (coarseX v).toNat)).toNat * 4 + bg

theorem paletteIndex_toNat (palette bg : BitVec 2) : (0#1 ++ palette ++ bg).toNat = palette.toNat * 4 + bg.toNat := by
  revert palette bg; decide

/-- The background pixel from the address `v`, where it shows (R221). -/
theorem backgroundPixel_shown {s : State} {v : BitVec 15} {p : Nat} {bg : BitVec 2}
    (shown : s.ppu.mask.getLsbD 3 = true ∧ (8 ≤ p ∨ s.ppu.mask.getLsbD 1 = true))
    (hbg : bg = patternPixel (readChr s (tileRowAddr s v + 8)) (readChr s (tileRowAddr s v)) (7 - (s.ppu.x.toNat + p) % 8)) :
    backgroundPixel (renderedFrom s v) p =
      if bg = 0 then (0, 0)
      else (bg, 0#1 ++
        Table.get 0 (attrCacheAt s.ppu) (tableAt s v * 1024 + (coarseY v).toNat * 32 + (coarseX v).toNat) ++ bg) := by
  have tile : readNametable (renderedFrom s v) (0x2000 + (v.extractLsb 11 0).toNat) =
      s.ppu.ciram.read (tableAt s v * 0x400 + v.toNat % 0x400) := readNametable_tile s v
  have table : mirrorOf s.mirroring (v.extractLsb 11 10).toNat = tableAt s v := by rw [ntSelect_toNat, tableAt]
  rw [hbg, tileRowAddr, ← tile, ← table]
  exact if_pos (layerShown_iff.2 shown)

theorem backgroundPixel_hidden {s : State} {p : Nat} (v : BitVec 15)
    (hidden : ¬ (s.ppu.mask.getLsbD 3 = true ∧ (8 ≤ p ∨ s.ppu.mask.getLsbD 1 = true))) :
    backgroundPixel (renderedFrom s v) p = (0, 0) := if_neg (mt layerShown_iff.1 hidden)

/-- The background pixel of the model as numbers; its palette index is of account only where the pixel is opaque. -/
theorem backgroundPixel_toNat (s : State) (v : BitVec 15) (p : Nat) :
    (backgroundPixel (renderedFrom s v) p).1.toNat = backgroundValue s v p ∧
    ((backgroundPixel (renderedFrom s v) p).1 ≠ 0 →
      (backgroundPixel (renderedFrom s v) p).2.toNat = backgroundIndex s v (backgroundValue s v p)) := by
  unfold backgroundValue
  by_cases shown : s.ppu.mask.getLsbD 3 = true ∧ (8 ≤ p ∨ s.ppu.mask.getLsbD 1 = true)
  · rw [backgroundPixel_shown shown rfl]
    simp only [if_pos shown, ← patternPixel_toNat]
    generalize patternPixel _ _ _ = bg
    split
    case isTrue transparent => exact ⟨by rw [transparent], fun opaqueBg => absurd rfl opaqueBg⟩
    case isFalse => exact ⟨rfl, fun _ => paletteIndex_toNat _ _⟩
  · rw [backgroundPixel_hidden v shown, if_neg shown]
    exact ⟨rfl, fun opaqueBg => absurd rfl opaqueBg⟩

/-! ## The sprite pixel and the multiplexer (R222, R223) -/

/-- The sprite pixel at row `y`, column `p`, none where sprites do not show (R222). -/
theorem spritePixelAt_eq (u : Ppu) (y p : Nat) :
    spritePixelAt u y p =
      if u.mask.getLsbD 4 = true ∧ (8 ≤ p ∨ u.mask.getLsbD 2 = true) then Grid.get none u.spr y p else none :=
  if_congr layerShown_iff rfl rfl

/-- The multiplexer's choice on numbers (R223). -/
def chosenIndex (bg bgIndex : Nat) (sp : Option SpritePixel) : Nat :=
  match sp with
  | none => if bg = 0 then 0 else bgIndex
  | some q => if bg = 0 then q.index.toNat else if q.behind then bgIndex else q.index.toNat

theorem pixelIndex_toNat {bg : BitVec 2} {bgidx : BitVec 5} {n : Nat} (h : bg ≠ 0 → bgidx.toNat = n)
    (sp : Option SpritePixel) : (pixelIndex bg bgidx sp).toNat = chosenIndex bg.toNat n sp := by
  unfold pixelIndex chosenIndex
  by_cases h0 : bg = 0
  · subst h0
    cases sp <;> rfl
  · have h0' : bg.toNat ≠ 0 := fun e => h0 (BitVec.eq_of_toNat_eq e)
    cases sp with
    | none => simp only [if_neg h0, if_neg h0', h h0]
    | some q =>
      simp only [if_neg h0, if_neg h0', ← h h0]
      split <;> rfl

/-! ## The sprite-zero hit (R224) -/

theorem spriteZeroHit_iff {u : Ppu} {p : Nat} {bg : BitVec 2} {sp : Option SpritePixel} :
    spriteZeroHit u p bg sp = true ↔
      (∃ q, sp = some q ∧ q.zero = true) ∧ bg.toNat ≠ 0 ∧ u.mask.getLsbD 3 = true ∧ u.mask.getLsbD 4 = true ∧ p ≠ 255 := by
  have opaqueBg : bg ≠ 0 ↔ bg.toNat ≠ 0 := not_congr BitVec.toNat_inj.symm
  unfold spriteZeroHit
  simp only [Bool.and_eq_true, bne_iff_ne, ← opaqueBg, and_assoc]
  refine and_congr ?_ Iff.rfl
  cases sp <;> simp

/-! ## Rendering disabled (R227) -/

/-- Without the background the pixel leaves v alone (R225, R226). -/
theorem scrollAfterPixel_noBackground {u : Ppu} (h : u.background = false) (p : Nat) : scrollAfterPixel u p = u := by
  simp [scrollAfterPixel, h]

section
variable {s : State} (noBackground : s.ppu.mask.getLsbD 3 = false) (noSprites : s.ppu.mask.getLsbD 4 = false)
include noBackground noSprites

theorem rendering_eq_false : s.ppu.rendering = false := by
  rw [Ppu.rendering, Ppu.background, Ppu.sprites, noBackground, noSprites]; rfl

theorem rendersFrom_v_of_disabled (y p : Nat) : RendersFrom s.ppu y p s.ppu.v := by
  unfold RendersFrom
  rw [if_neg fun h => Bool.eq_false_iff.1 (rendering_eq_false noBackground noSprites) ((rendering_iff _).2 h.2)]

theorem renderedFrom_v_of_disabled : renderedFrom s s.ppu.v = s := by
  have kept : attrCacheAt s.ppu = s.ppu.attr :=
    if_neg fun h => Bool.eq_false_iff.1 (rendering_eq_false noBackground noSprites) h.2.2
  rw [renderedFrom, kept]; rfl

/-- With rendering disabled the pixel is the backdrop colour, and there is no hit. -/
theorem drawPixel_of_disabled (y p : Nat) :
    drawPixel s y p = { s.ppu with fb := Grid.set 0 s.ppu.fb y p (Table.get 0 s.ppu.pal 0) } := by
  have bg : backgroundPixel s p = (0, 0) :=
    if_neg (mt layerShown_iff.1 fun h => Bool.eq_false_iff.1 noBackground h.1)
  have sp : spritePixelAt s.ppu y p = none :=
    if_neg (mt layerShown_iff.1 fun h => Bool.eq_false_iff.1 noSprites h.1)
  have noHit : spriteZeroHit s.ppu p 0 none = false := rfl
  rw [drawPixel, bg, sp]
  dsimp only
  rw [noHit, Bool.or_false]; rfl

end

/-! ## The pixel -/

/-- The palette index that the tick at row `y`, column `p` draws (R221 to R223). -/
theorem drawnIndex_toNat (s : State) (v : BitVec 15) (y p : Nat) :
    (pixelIndex (backgroundPixel (renderedFrom s v) p).1 (backgroundPixel (renderedFrom s v) p).2
        (spritePixelAt s.ppu y p)).toNat =
      chosenIndex (backgroundValue s v p) (backgroundIndex s v (backgroundValue s v p))
        (if s.ppu.mask.getLsbD 4 = true ∧ (8 ≤ p ∨ s.ppu.mask.getLsbD 2 = true) then Grid.get none s.ppu.spr y p
          else none) := by
  obtain ⟨value, index⟩ := backgroundPixel_toNat s v p
  rw [pixelIndex_toNat index, value, spritePixelAt_eq]

/-- Settles O42: with rendering enabled the choice of the multiplexer on the two pixels as numbers; with rendering disabled the
backdrop. -/
theorem visiblePixel : Obligations.VisiblePixel := by
  unfold Obligations.VisiblePixel
  refine ⟨fun s y p v0 hline hy hpixel hp hv0 => ?drawn, fun s y p hline hy hpixel hp noBackground noSprites => ?backdrop⟩
  case drawn =>
    rw [ppuTick_visible hline hy hpixel hp hv0]
    refine ⟨fun y' x' => ?place, ?hit, rfl⟩
    case place =>
      exact (Grid.get_set 0 s.ppu.fb y p y' x' _).trans (congrArg
        (fun i => if y' = y ∧ x' = p then Table.get 0 s.ppu.pal (palIndex i) else Grid.get 0 s.ppu.fb y' x')
        (drawnIndex_toNat s v0 y p))
    case hit =>
      refine (Iff.of_eq (Bool.or_eq_true s.ppu.s0 _)).trans (or_congr_right (spriteZeroHit_iff.trans ?_))
      rw [(backgroundPixel_toNat s v0 p).1, spritePixelAt_eq]
      rfl
  case backdrop =>
    have kept : scrollAfterPixel (drawPixel s y p) p = drawPixel s y p :=
      scrollAfterPixel_noBackground (u := drawPixel s y p) noBackground p
    rw [ppuTick_visible hline hy hpixel hp (rendersFrom_v_of_disabled noBackground noSprites y p),
      renderedFrom_v_of_disabled noBackground noSprites, kept, drawPixel_of_disabled noBackground noSprites]

end Sys2Proof.Machine
end

section
/-! SUPPORT. The frame sequencer at every count (R263 to R265), and O45. -/

namespace Sys2Proof.Machine

/-- The count at which the sequence of the mode ends (R263). -/
def FrameSeq.lastCount (f : FrameSeq) : Nat := if f.mode5 then 18640 else 14914

section
variable {a : Apu}

theorem Apu.frameTick_quarter {n : Nat} (hn : n = 3728 ∨ n = 11185) (h : n = a.frame.fcount + 1) :
    a.frameTick = (a.setCount n).quarter := by
  unfold Apu.frameTick
  rw [← h]
  rcases hn with rfl | rfl <;> cases a.frame.mode5 <;> rfl

theorem Apu.frameTick_half (h : 7456 = a.frame.fcount + 1) : a.frameTick = (a.setCount 7456).quarter.half := by
  unfold Apu.frameTick
  rw [← h]
  cases a.frame.mode5 <;> rfl

theorem Apu.frameTick_end_fourStep (hmode : a.frame.mode5 = false) (h : 14914 = a.frame.fcount + 1) :
    a.frameTick = { (a.setCount 14914).quarter.half with
      frame := { a.frame with fcount := 0, frameIrq := a.frame.frameIrq || !a.frame.irqInhibit } } := by
  unfold Apu.frameTick
  rw [← h, hmode]
  rfl

theorem Apu.frameTick_end_fiveStep (hmode : a.frame.mode5 = true) (h : 18640 = a.frame.fcount + 1) :
    a.frameTick = { (a.setCount 18640).quarter.half with frame := { a.frame with fcount := 0 } } := by
  unfold Apu.frameTick
  rw [← h, hmode]
  rfl

theorem Apu.frameTick_between {n : Nat} (h : n = a.frame.fcount + 1) (h1 : n ≠ 3728) (h2 : n ≠ 7456) (h3 : n ≠ 11185)
    (h4 : a.frame.mode5 = true ∨ n ≠ 14914) (h5 : a.frame.mode5 = false ∨ n ≠ 18640) : a.frameTick = a.setCount n := by
  unfold Apu.frameTick
  rw [← h]
  dsimp only
  split
  · exact absurd rfl h1
  · exact absurd rfl h2
  · exact absurd rfl h3
  · rename_i hm; simp [hm] at h4
  · rename_i hm; simp [hm] at h5
  · rfl

end

/-- The interrupt of the sequencer's tick, raised at the end of the four-step sequence alone. -/
theorem Apu.frameIrqDue_iff {a : Apu} :
    a.frameIrqDue = true ↔ a.frame.mode5 = false ∧ a.frame.fcount + 1 = 14914 ∧ a.frame.irqInhibit = false := by
  simp [Apu.frameIrqDue, and_assoc]

theorem frameSequencerTick_quiet {s : State} (h : s.apu.frameIrqDue = false) :
    frameSequencerTick s = s.withApu s.apu.frameTick := by
  rw [frameSequencerTick, h]; rfl

/-- An IRQ raised is latched where the latch holds nothing, and leaves any other kind (R384). -/
theorem Latch.after_irqBrk_eq (l : Latch) : l.after .irqBrk = if l = .none then .irqBrk else l := by
  cases l <;> rfl

theorem frameSequencerTick_irq {s : State} (h : s.apu.frameIrqDue = true) :
    frameSequencerTick s =
      { s with apu := s.apu.frameTick, latch := if s.latch = .none then .irqBrk else s.latch } := by
  rw [frameSequencerTick, h, ← Latch.after_irqBrk_eq]; rfl

/-- Settles O45: the sequencer's tick at each count, and the interrupt at the one where it is due. -/
theorem frameSequencerTicks : Obligations.FrameSequencerTicks := by
  unfold Obligations.FrameSequencerTicks
  refine ⟨?ticks, fun a => ⟨rfl, _, _, rfl, rfl, rfl⟩⟩
  rintro s n a hn rfl
  have quiet : n ≠ 14914 ∨ s.apu.frame.mode5 = true ∨ s.apu.frame.irqInhibit = true →
      frameSequencerTick s = s.withApu s.apu.frameTick := fun h =>
    frameSequencerTick_quiet (Bool.eq_false_iff.2 fun due => by
      obtain ⟨mode, count, inhibit⟩ := Apu.frameIrqDue_iff.1 due
      rcases h with h | h | h
      · exact h (hn.trans count)
      · exact Bool.eq_false_iff.1 mode h
      · exact Bool.eq_false_iff.1 inhibit h)
  refine ⟨fun h => ?quarter, ?half, fun mode h inhibit => ?inhibited, fun mode h inhibit => ?irq, fun mode h => ?fiveStep,
    fun h1 h2 h3 h4 h5 => ?between⟩
  case quarter => rw [quiet (by omega), Apu.frameTick_quarter h hn]; rfl
  case half => rintro rfl; rw [quiet (by omega), Apu.frameTick_half hn]; rfl
  case inhibited =>
    subst h
    rw [quiet (.inr (.inr inhibit)), Apu.frameTick_end_fourStep mode hn, inhibit, Bool.not_true, Bool.or_false]
    rfl
  case irq =>
    subst h
    rw [frameSequencerTick_irq (Apu.frameIrqDue_iff.2 ⟨mode, hn.symm, inhibit⟩), Apu.frameTick_end_fourStep mode hn, inhibit,
      Bool.not_false, Bool.or_true]
    rfl
  case fiveStep => subst h; rw [quiet (by omega), Apu.frameTick_end_fiveStep mode hn]; rfl
  case between =>
    rw [quiet (by tauto), Apu.frameTick_between hn h1 h2 h3 h4 h5]
    rfl

/-! ## What the sequencer's tick leaves alone -/

theorem Apu.frameTick_mode5 (a : Apu) : a.frameTick.frame.mode5 = a.frame.mode5 := by
  unfold Apu.frameTick; dsimp only; split <;> rfl

theorem Apu.frameTick_dmc (a : Apu) : a.frameTick.dmc = a.dmc := by
  unfold Apu.frameTick; dsimp only; split <;> rfl

theorem Apu.frameTick_lfsr (a : Apu) : a.frameTick.noise.lfsr = a.noise.lfsr := by
  unfold Apu.frameTick; dsimp only; split <;> rfl

/-- The tick counts on, or starts the sequence again at its end. -/
theorem Apu.frameTick_fcount (a : Apu) :
    a.frameTick.frame.fcount = if a.frame.fcount + 1 = a.frame.lastCount then 0 else a.frame.fcount + 1 := by
  have last : a.frame.lastCount = if a.frame.mode5 then 18640 else 14914 := rfl
  rw [last]
  unfold Apu.frameTick
  dsimp only
  generalize a.frame.fcount + 1 = n, a.frame.mode5 = mode
  split
  · cases mode <;> rfl
  · cases mode <;> rfl
  · cases mode <;> rfl
  · rfl
  · rfl
  · rename_i fourStep fiveStep
    cases mode
    · exact (if_neg fun h => fourStep rfl h).symm
    · exact (if_neg fun h => fiveStep rfl h).symm

end Sys2Proof.Machine
end

section
/-! SUPPORT. What can happen to the APU in a step, said once: from a rule for each part, a rule for the whole step. -/

namespace Sys2Proof.Machine

/-- `P`, a property of the APU's own state, is kept by everything that can happen to the APU in a step: a status read, the
frame sequencer, the timers, a byte fetched by the DMC's reader, and the three kinds of register writes. -/
structure KeptByApu (P : State → Prop) : Prop where
  same : ∀ {s t}, t.apu = s.apu → P s → P t
  frameIrq : ∀ {s} (b : Bool), P s → P (s.withApu (s.apu.setFrameIrq b))
  frameTick : ∀ {s}, P s → P (s.withApu s.apu.frameTick)
  timersTick : ∀ {s}, P s → P (s.withApu s.apu.timersTick)
  fetched : ∀ {s} (b : Byte), s.apu.dmc.bytesLeft ≠ 0 → P s → P (s.withApu { s.apu with dmc := s.apu.dmc.fetched b })
  enables : ∀ {s} (v : Byte), P s → P (s.withApu (s.apu.writeEnables v))
  frameCounter : ∀ {s} (v : Byte), P s → P (s.withApu (s.apu.writeFrameCounter v))
  channel : ∀ {s} (r : Nat) (v : Byte), P s → P (s.withApu (s.apu.writeChannel r v))

/-- A bus read changes nothing of the APU but the frame flag (R285). -/
theorem memRead_apu {a : Word} {v : Byte} {s t : State} (h : memRead a s = .ok v t) :
    t.apu = s.apu.setFrameIrq t.apu.frame.frameIrq := congrArg State.apu (memRead_frame h).1

theorem memRead_dmc {a : Word} {v : Byte} {s t : State} (h : memRead a s = .ok v t) : t.apu.dmc = s.apu.dmc := by
  rw [memRead_apu h]; rfl

theorem ppuRegWrite_apu {r : Nat} {v : Byte} {s t : State} (h : ppuRegWrite r v s = .ok () t) : t.apu = s.apu := by
  rcases ppuRegWrite_cases h with ⟨p, rfl⟩ | rfl | ⟨u, hw, rfl⟩
  · rfl
  · rfl
  · rcases ppuWrite_cases hw with ⟨-, -, rfl⟩ | ⟨-, -, rfl⟩ | ⟨-, rfl⟩ <;> rfl

theorem mapperWrite_apu {a : Word} {v : Byte} {s t : State} (h : mapperWrite a v s = .ok () t) : t.apu = s.apu := by
  rcases mapperWrite_cases h with ⟨m, -, rfl⟩ | ⟨m, -, -, rfl⟩ <;> rfl

namespace KeptByApu

variable {P : State → Prop} (hP : KeptByApu P)
include hP

theorem memRead {a : Word} {v : Byte} {s t : State} (h : Machine.memRead a s = .ok v t) (hs : P s) : P t :=
  hP.same (s := s.withApu (s.apu.setFrameIrq t.apu.frame.frameIrq)) (memRead_apu h) (hP.frameIrq _ hs)

theorem dmcReaderCheck {s t : State} (h : Machine.dmcReaderCheck s = .ok () t) (hs : P s) : P t := by
  rcases dmcReaderCheck_cases h with ⟨-, rfl⟩ | ⟨-, left, b, u, hr, rfl⟩
  · exact hs
  · rw [← memRead_dmc hr] at left
    exact hP.same (s := u.withApu { u.apu with dmc := u.apu.dmc.fetched b }) rfl (hP.fetched b left (hP.memRead hr hs))

theorem ioWrite {r : Nat} {v : Byte} {s t : State} (h : Machine.ioWrite r v s = .ok () t) (hs : P s) : P t := by
  unfold Machine.ioWrite at h
  split at h
  case h_1 =>
    obtain ⟨_, u, hr, hk⟩ := Res.bind_eq_ok.1 h
    cases hk
    exact hP.same (s := u) rfl (oamDmaCopy_preserves P v hP.memRead (fun {s} _ _ hs => hP.same (s := s) rfl hs) hr hs)
  case h_2 =>
    unfold writeApuEnables at h
    dsimp only at h
    split at h
    · exact hP.dmcReaderCheck h (hP.enables v hs)
    · cases h; exact hP.enables v hs
  case h_3 => cases h; exact hP.same (s := s) rfl hs
  case h_4 => cases h; exact hP.frameCounter v hs
  case h_5 => cases h; exact hP.channel r v hs

theorem memWrite {a : Word} {v : Byte} {s t : State} (h : Machine.memWrite a v s = .ok () t) (hs : P s) : P t := by
  unfold Machine.memWrite at h
  split at h
  case h_1 => cases h; exact hP.same (s := s) rfl hs
  case h_2 => exact hP.same (ppuRegWrite_apu h) hs
  case h_3 => exact hP.ioWrite h hs
  case h_4 => exact absurd h (raise_ne_ok _ _ _ _)
  case h_5 => cases h; exact hP.same (s := s) rfl hs
  case h_6 => exact hP.same (mapperWrite_apu h) hs

theorem frameSequencerTick {s : State} (hs : P s) : P (Machine.frameSequencerTick s) :=
  hP.same (s := s.withApu s.apu.frameTick) rfl (hP.frameTick hs)

theorem apuTick {s t : State} (h : Machine.apuTick s = .ok () t) (hs : P s) : P t :=
  hP.dmcReaderCheck h (hP.timersTick (hP.frameSequencerTick hs))

theorem drainPpu {s : State} (hs : P s) : P (Machine.drainPpu s) :=
  drainPpu_preserves P (fun {s} hs => hP.same (s := s) (by rw [ppuTick_frame]) hs)
    (fun {s} _ hs => hP.same (s := s) rfl hs) hs

/-- What every part keeps, a step keeps. -/
theorem step {s t : State} (h : Machine.step s = .next t) (hs : P s) : P t :=
  step_preserves P (fun {s t} hb hs => hP.same (s := s) (by rw [hb]) hs)
    (fun {s} _ hs => hP.same (s := s) rfl hs) hP.memRead hP.memWrite (fun {s} hs => hP.same (s := s) rfl hs)
    (fun {s} hs => hP.same (s := s) (by rw [ppuTick_frame]) hs) hP.apuTick
    (fun {s} hs => hP.same (s := s) (by rw [resolveInterrupt_frame]) hs) h hs

end KeptByApu

end Sys2Proof.Machine
end

section
/-! SUPPORT. The ranges of the APU (R291): the noise register, the bits left in the DMC's output unit and the count of the
sequencer are kept in theirs, and the outputs are bounded; O50. -/

namespace Sys2Proof.Machine

/-! ## The DMC's output unit and the noise register (R275, R277) -/

section
variable {d : Dmc}

theorem Dmc.outputClock_within (h : d.bitsLeft ≠ 1) :
    d.outputClock = { d with level := dmcLevel d, shift := d.shift >>> 1, bitsLeft := d.bitsLeft - 1 } :=
  if_neg (mt sub_eq_zero.1 h)

theorem Dmc.outputClock_nextByte (h : d.bitsLeft = 1) (full : d.bufferFull = true) :
    d.outputClock =
      { d with level := dmcLevel d, bitsLeft := 8, silence := false, shift := d.buffer, bufferFull := false } :=
  (if_pos (sub_eq_zero.2 h)).trans (if_pos full)

theorem Dmc.outputClock_silence (h : d.bitsLeft = 1) (empty : d.bufferFull = false) :
    d.outputClock = { d with level := dmcLevel d, shift := d.shift >>> 1, bitsLeft := 8, silence := true } :=
  (if_pos (sub_eq_zero.2 h)).trans (if_neg (Bool.eq_false_iff.1 empty))

end

/-- The output unit has 1 to 8 bits left after a clock that found as many. -/
theorem Dmc.outputClock_bitsLeft {d : Dmc} (h : 1 ≤ d.bitsLeft.toNat ∧ d.bitsLeft.toNat ≤ 8) :
    1 ≤ d.outputClock.bitsLeft.toNat ∧ d.outputClock.bitsLeft.toNat ≤ 8 := by
  have eight : 1 ≤ (8 : BitVec 4).toNat ∧ (8 : BitVec 4).toNat ≤ 8 := by decide
  by_cases last : d.bitsLeft = 1
  · cases full : d.bufferFull
    · rw [Dmc.outputClock_silence last full]; exact eight
    · rw [Dmc.outputClock_nextByte last full]; exact eight
  · rw [Dmc.outputClock_within last]
    have := BitVec.toNat_ne.1 last
    dsimp only
    bv_omega

theorem Dmc.timerTick_bitsLeft {d : Dmc} (h : 1 ≤ d.bitsLeft.toNat ∧ d.bitsLeft.toNat ≤ 8) :
    1 ≤ d.timerTick.bitsLeft.toNat ∧ d.timerTick.bitsLeft.toNat ≤ 8 := by
  unfold Dmc.timerTick
  split
  · exact Dmc.outputClock_bitsLeft h
  · exact h

theorem append_toNat {m n : Nat} (x : BitVec m) (y : BitVec n) : (x ++ y).toNat = x.toNat * 2 ^ n + y.toNat := by
  rw [BitVec.toNat_append, ← Nat.shiftLeft_add_eq_or_of_lt y.isLt, Nat.shiftLeft_eq]

/-- A bit put on top of all but the lowest bit. -/
theorem shiftedIn_toNat (b : Bool) (l : BitVec 15) :
    (BitVec.ofBool b ++ l.extractLsb 14 1).toNat = l.toNat / 2 + if b then 0x4000 else 0 := by
  have hl := l.isLt
  have low : (l.extractLsb 14 1).toNat = l.toNat / 2 := by
    rw [BitVec.extractLsb_toNat, Nat.shiftRight_eq_div_pow]; omega
  rw [append_toNat, low, Nat.add_comm, BitVec.toNat_ofBool]
  cases b <;> rfl

theorem noiseShift_toNat (mode : Bool) (l : BitVec 15) :
    (noiseShift mode l).toNat =
      l.toNat / 2 + if l.getLsbD 0 = (if mode then l.getLsbD 6 else l.getLsbD 1) then 0 else 0x4000 := by
  rw [noiseShift, shiftedIn_toNat]
  generalize l.getLsbD 0 = out, (if mode then l.getLsbD 6 else l.getLsbD 1) = tap
  cases out <;> cases tap <;> rfl

/-- Only a register of 1 shifts its last bit out, and it shifts a 1 in. -/
theorem noiseShift_ne_zero (mode : Bool) {l : BitVec 15} (h : l ≠ 0) : noiseShift mode l ≠ 0 := by
  by_cases one : l = 1
  · subst one; cases mode <;> decide
  · have sum := noiseShift_toNat mode l
    intro zero
    rw [zero] at sum
    bv_omega

/-! ## The ranges of the APU (R291) -/

theorem apuInv_iff {s : State} :
    ApuInv s ↔ s.apu.frame.fcount < s.apu.frame.lastCount ∧
      (1 ≤ s.apu.dmc.bitsLeft.toNat ∧ s.apu.dmc.bitsLeft.toNat ≤ 8) ∧ s.apu.noise.lfsr ≠ 0 := by
  unfold FrameSeq.lastCount
  constructor
  · rintro ⟨fourStep, fiveStep, bits, lfsr⟩
    refine ⟨?_, bits, lfsr⟩
    split
    case isTrue mode => exact fiveStep mode
    case isFalse mode => exact fourStep (Bool.eq_false_iff.2 mode)
  · rintro ⟨count, bits, lfsr⟩
    exact ⟨fun mode => by simpa [mode] using count, fun mode => by simpa [mode] using count, bits, lfsr⟩

theorem Noise.timerTick_lfsr {c : Noise} (h : c.lfsr ≠ 0) : c.timerTick.lfsr ≠ 0 := by
  unfold Noise.timerTick
  split
  · exact noiseShift_ne_zero _ h
  · exact h

theorem Dmc.fetched_bitsLeft (d : Dmc) (b : Byte) : (d.fetched b).bitsLeft = d.bitsLeft := by
  unfold Dmc.fetched; dsimp only; split
  · split <;> rfl
  · rfl

theorem Dmc.write_bitsLeft (d : Dmc) (r : Nat) (v : Byte) : (d.write r v).bitsLeft = d.bitsLeft := by
  unfold Dmc.write; split <;> rfl

theorem Noise.write_lfsr (c : Noise) (r : Nat) (v : Byte) : (c.write r v).lfsr = c.lfsr := by
  unfold Noise.write; split <;> rfl

/-- Everything a write to a channel register can do: a register write of one of the five channels (R280 to R283). -/
theorem Apu.writeChannel_cases (a : Apu) (r : Nat) (v : Byte) :
    (∃ k, a.writeChannel r v = { a with pulse1 := a.pulse1.write k v }) ∨
    (∃ k, a.writeChannel r v = { a with pulse2 := a.pulse2.write k v }) ∨
    (∃ k, a.writeChannel r v = { a with triangle := a.triangle.write k v }) ∨
    (∃ k, a.writeChannel r v = { a with noise := a.noise.write k v }) ∨
    ∃ k, a.writeChannel r v = { a with dmc := a.dmc.write k v } := by
  unfold Apu.writeChannel
  split
  · exact .inl ⟨_, rfl⟩
  · split
    · exact .inr (.inl ⟨_, rfl⟩)
    · split
      · exact .inr (.inr (.inl ⟨_, rfl⟩))
      · split
        · exact .inr (.inr (.inr (.inl ⟨_, rfl⟩)))
        · exact .inr (.inr (.inr (.inr ⟨_, rfl⟩)))

/-- The frame counter's write starts the sequence again and leaves the DMC and the noise register alone (R286). -/
theorem Apu.writeFrameCounter_frame (a : Apu) (v : Byte) :
    (a.writeFrameCounter v).frame.fcount = 0 ∧ (a.writeFrameCounter v).dmc = a.dmc ∧
      (a.writeFrameCounter v).noise.lfsr = a.noise.lfsr := by
  unfold Apu.writeFrameCounter; dsimp only; split <;> exact ⟨rfl, rfl, rfl⟩

theorem FrameSeq.lastCount_pos (f : FrameSeq) : 0 < f.lastCount := by
  unfold FrameSeq.lastCount; split <;> decide

theorem Apu.frameTick_fcount_lt {a : Apu} (h : a.frame.fcount < a.frame.lastCount) :
    a.frameTick.frame.fcount < a.frameTick.frame.lastCount := by
  have last : a.frameTick.frame.lastCount = a.frame.lastCount := by
    rw [FrameSeq.lastCount, Apu.frameTick_mode5]; rfl
  have pos := a.frame.lastCount_pos
  rw [last, Apu.frameTick_fcount]
  split <;> omega

/-- What does not touch the count, the mode, the bits left and the noise register keeps the ranges. -/
theorem ApuInv.of_eq {s t : State} (h : ApuInv s) (frame : t.apu.frame.fcount = s.apu.frame.fcount)
    (mode : t.apu.frame.mode5 = s.apu.frame.mode5) (bits : t.apu.dmc.bitsLeft = s.apu.dmc.bitsLeft)
    (lfsr : t.apu.noise.lfsr = s.apu.noise.lfsr) : ApuInv t :=
  ⟨mode ▸ frame ▸ h.fourStep, mode ▸ frame ▸ h.fiveStep, bits ▸ h.bits, lfsr ▸ h.lfsr⟩

theorem apuInv_keptByApu : KeptByApu ApuInv where
  same h hs := hs.of_eq (by rw [h]) (by rw [h]) (by rw [h]) (by rw [h])
  frameIrq _ hs := hs.of_eq rfl rfl rfl rfl
  frameTick {s} hs := by
    obtain ⟨count, bits, lfsr⟩ := apuInv_iff.1 hs
    exact apuInv_iff.2 ⟨Apu.frameTick_fcount_lt count, (Apu.frameTick_dmc s.apu).symm ▸ bits,
      (Apu.frameTick_lfsr s.apu).symm ▸ lfsr⟩
  timersTick hs := { hs with bits := Dmc.timerTick_bitsLeft hs.bits, lfsr := Noise.timerTick_lfsr hs.lfsr }
  fetched b _ hs := hs.of_eq rfl rfl (Dmc.fetched_bitsLeft _ b) rfl
  enables _ hs := hs.of_eq rfl rfl rfl rfl
  frameCounter {s} v hs := by
    obtain ⟨count, dmc, lfsr⟩ := Apu.writeFrameCounter_frame s.apu v
    refine apuInv_iff.2 ⟨?_, ?_, ?_⟩
    · exact count.symm ▸ FrameSeq.lastCount_pos _
    · exact dmc.symm ▸ hs.bits
    · exact lfsr.symm ▸ hs.lfsr
  channel {s} r v hs := by
    rcases s.apu.writeChannel_cases r v with ⟨k, e⟩ | ⟨k, e⟩ | ⟨k, e⟩ | ⟨k, e⟩ | ⟨k, e⟩ <;> rw [e]
    · exact hs.of_eq rfl rfl rfl rfl
    · exact hs.of_eq rfl rfl rfl rfl
    · exact hs.of_eq rfl rfl rfl rfl
    · exact hs.of_eq rfl rfl rfl (Noise.write_lfsr _ k v)
    · exact hs.of_eq rfl rfl (Dmc.write_bitsLeft _ k v) rfl

theorem Envelope.volume_le (e : Envelope) : e.volume ≤ 15 := by
  unfold Envelope.volume
  split <;> omega

theorem Pulse.output_le (p : Pulse) (one : Bool) : p.output one ≤ 15 := by
  unfold Pulse.output
  split
  · omega
  · exact p.env.volume_le

theorem Triangle.output_le (t : Triangle) : t.output ≤ 15 := by
  unfold Triangle.output
  split <;> omega

theorem Noise.output_le (c : Noise) : c.output ≤ 15 := by
  unfold Noise.output
  split
  · omega
  · exact c.env.volume_le

theorem Apu.pulseIndex_le (a : Apu) : a.pulseIndex ≤ 30 :=
  Nat.add_le_add (a.pulse1.output_le true) (a.pulse2.output_le false)

theorem Apu.tndIndex_le (a : Apu) : a.tndIndex ≤ 202 := by
  have := a.triangle.output_le
  have := a.noise.output_le
  unfold Apu.tndIndex
  omega

/-- Settles O50: each part of a step keeps the ranges, and each output is bounded by its own definition. -/
theorem apuInvariantKept : Obligations.ApuInvariantKept := by
  unfold Obligations.ApuInvariantKept
  exact ⟨fun s t hs h => apuInv_keptByApu.step h hs, fun a => ⟨Pulse.output_le, a.triangle.output_le, a.noise.output_le,
    a.pulseIndex_le, a.tndIndex_le⟩⟩

end Sys2Proof.Machine
end

section
/-! SUPPORT. The DMC's reader (R276, R279): when its check goes on, and that a step keeps its addresses where a read cannot
fault; O51. -/

namespace Sys2Proof.Machine

theorem dmcReaderCheck_idle {s : State} (h : s.apu.dmc.bufferFull = true ∨ s.apu.dmc.bytesLeft = 0) :
    dmcReaderCheck s = .ok () s := by
  refine if_neg fun due => ?_
  rcases h with full | none
  · exact absurd (due.1.symm.trans full) (by decide)
  · exact due.2 none

theorem dmcReaderCheck_fetch {s t : State} {b : Byte} (empty : s.apu.dmc.bufferFull = false)
    (left : s.apu.dmc.bytesLeft ≠ 0) (hr : memRead s.apu.dmc.curAddr s = .ok b t) :
    dmcReaderCheck s = .ok () (raiseInterrupt (if s.apu.dmc.irqDue then .irqBrk else .none)
      ((t.withApu { t.apu with dmc := s.apu.dmc.fetched b }).owe 4)) := by
  rw [← memRead_dmc hr]
  unfold dmcReaderCheck
  rw [if_pos ⟨empty, left⟩, hr]
  rfl

/-- The check goes on wherever a byte that is left lies at an address with a handler. -/
theorem dmcReaderCheck_goesOn {s : State} (h : s.apu.dmc.bytesLeft ≠ 0 → regionOf s.apu.dmc.curAddr ≠ .unmapped) :
    ∃ t, dmcReaderCheck s = .ok () t := by
  by_cases idle : s.apu.dmc.bufferFull = true ∨ s.apu.dmc.bytesLeft = 0
  · exact ⟨s, dmcReaderCheck_idle idle⟩
  · obtain ⟨empty, left⟩ := not_or.1 idle
    obtain ⟨b, t, hr⟩ := memRead_mapped (h left) s
    exact ⟨_, dmcReaderCheck_fetch (Bool.eq_false_iff.2 empty) left hr⟩

/-- A timer tick leaves the sample alone: its address, its length and where it is read. -/
theorem Dmc.timerTick_sample (d : Dmc) :
    d.timerTick.sampleAddr = d.sampleAddr ∧ d.timerTick.curAddr = d.curAddr ∧ d.timerTick.bytesLeft = d.bytesLeft := by
  unfold Dmc.timerTick Dmc.outputClock
  dsimp only
  split_ifs <;> exact ⟨rfl, rfl, rfl⟩

/-- The address that a byte written to 0x4012 gives (R283). -/
theorem sampleAddress_eq (v : Byte) :
    (0xC000 : Word) + BitVec.ofNat 16 (v.toNat * 64) = BitVec.ofNat 16 (0xC000 + v.toNat * 64) :=
  BitVec.ofNat_add_ofNat ..

/-- A sample starts at 0xC000 or above, whatever its address register is set to (R283). -/
theorem Dmc.write_sampleAddr {d : Dmc} (h : 0xC000 ≤ d.sampleAddr.toNat) (r : Nat) (v : Byte) :
    0xC000 ≤ (d.write r v).sampleAddr.toNat := by
  have := v.isLt
  unfold Dmc.write
  split
  · exact h
  · exact h
  · rw [sampleAddress_eq, BitVec.toNat_ofNat]; omega
  · exact h

theorem Dmc.write_position (d : Dmc) (r : Nat) (v : Byte) :
    (d.write r v).curAddr = d.curAddr ∧ (d.write r v).bytesLeft = d.bytesLeft := by
  unfold Dmc.write; split <;> exact ⟨rfl, rfl⟩

theorem Dmc.fetched_sampleAddr (d : Dmc) (b : Byte) : (d.fetched b).sampleAddr = d.sampleAddr := by
  unfold Dmc.fetched
  dsimp only
  split_ifs <;> rfl

/-- The reader stays at 0x8000 or above: it goes on to the next address, wraps to 0x8000, or starts the sample again
(R276). -/
theorem Dmc.fetched_curAddr {d : Dmc} (start : 0xC000 ≤ d.sampleAddr.toNat) (current : 0x8000 ≤ d.curAddr.toNat) (b : Byte) :
    0x8000 ≤ (d.fetched b).curAddr.toNat := by
  have next : 0x8000 ≤ (if d.curAddr = 0xFFFF then 0x8000 else d.curAddr + 1).toNat := by
    split
    · decide
    · rename_i notLast
      have := BitVec.toNat_ne.1 notLast
      bv_omega
  unfold Dmc.fetched
  dsimp only
  split
  · split
    · exact Nat.le_trans (by decide) start
    · exact next
  · exact next

/-- What does not touch the sample keeps the reader's addresses. -/
theorem DmcInv.of_eq {s t : State} (h : DmcInv s) (start : t.apu.dmc.sampleAddr = s.apu.dmc.sampleAddr)
    (current : t.apu.dmc.curAddr = s.apu.dmc.curAddr) (left : t.apu.dmc.bytesLeft = s.apu.dmc.bytesLeft) : DmcInv t :=
  ⟨start ▸ h.start, current ▸ left ▸ h.current⟩

theorem DmcInv.of_dmc {s : State} {d : Dmc} (h : s.apu.dmc = d) (start : 0xC000 ≤ d.sampleAddr.toNat)
    (current : d.bytesLeft ≠ 0 → 0x8000 ≤ d.curAddr.toNat) : DmcInv s :=
  ⟨h ▸ start, h ▸ current⟩

/-- A write of the enables leaves the DMC stopped, at the start of its sample, or running on (R284). -/
theorem Apu.writeEnables_dmc_stop (a : Apu) {v : Byte} (off : v.getLsbD 4 = false) :
    (a.writeEnables v).dmc = { a.dmc with irqFlag := false, bytesLeft := 0 } := by
  unfold Apu.writeEnables; dsimp only; rw [off]; rfl

theorem Apu.writeEnables_dmc_start (a : Apu) {v : Byte} (on : v.getLsbD 4 = true) (ended : a.dmc.bytesLeft = 0) :
    (a.writeEnables v).dmc =
      { a.dmc with irqFlag := false, curAddr := a.dmc.sampleAddr, bytesLeft := a.dmc.sampleLen } := by
  unfold Apu.writeEnables; dsimp only; rw [on, ended]; rfl

theorem Apu.writeEnables_dmc_running (a : Apu) {v : Byte} (on : v.getLsbD 4 = true) (left : a.dmc.bytesLeft ≠ 0) :
    (a.writeEnables v).dmc = { a.dmc with irqFlag := false } := by
  unfold Apu.writeEnables; dsimp only; rw [on, beq_false_of_ne left, if_pos rfl, if_neg left]; rfl

theorem dmcInv_keptByApu : KeptByApu DmcInv where
  same h hs := hs.of_eq (by rw [h]) (by rw [h]) (by rw [h])
  frameIrq _ hs := hs.of_eq rfl rfl rfl
  frameTick {s} hs := by
    have dmc := Apu.frameTick_dmc s.apu
    exact hs.of_eq (congrArg Dmc.sampleAddr dmc) (congrArg Dmc.curAddr dmc) (congrArg Dmc.bytesLeft dmc)
  timersTick {s} hs := by
    obtain ⟨start, current, left⟩ := s.apu.dmc.timerTick_sample
    exact hs.of_eq start current left
  fetched {s} b left hs :=
    ⟨(Dmc.fetched_sampleAddr _ b).symm ▸ hs.start, fun _ => Dmc.fetched_curAddr hs.start (hs.current left) b⟩
  enables {s} v hs := by
    cases on : v.getLsbD 4
    · exact .of_dmc (s.apu.writeEnables_dmc_stop on) hs.start fun left => absurd rfl left
    · by_cases ended : s.apu.dmc.bytesLeft = 0
      · exact .of_dmc (s.apu.writeEnables_dmc_start on ended) hs.start fun _ => Nat.le_trans (by decide) hs.start
      · exact .of_dmc (s.apu.writeEnables_dmc_running on ended) hs.start hs.current
  frameCounter {s} v hs := by
    have dmc := (Apu.writeFrameCounter_frame s.apu v).2.1
    exact hs.of_eq (congrArg Dmc.sampleAddr dmc) (congrArg Dmc.curAddr dmc) (congrArg Dmc.bytesLeft dmc)
  channel {s} r v hs := by
    rcases s.apu.writeChannel_cases r v with ⟨k, e⟩ | ⟨k, e⟩ | ⟨k, e⟩ | ⟨k, e⟩ | ⟨k, e⟩ <;> rw [e]
    · exact hs.of_eq rfl rfl rfl
    · exact hs.of_eq rfl rfl rfl
    · exact hs.of_eq rfl rfl rfl
    · exact hs.of_eq rfl rfl rfl
    · obtain ⟨current, left⟩ := s.apu.dmc.write_position k v
      exact ⟨Dmc.write_sampleAddr hs.start k v, current ▸ left ▸ hs.current⟩

/-- A byte that is left is read from PRG, where every read goes on (R279). -/
theorem DmcInv.dmcReaderCheck_goesOn {s : State} (hs : DmcInv s) : ∃ t, dmcReaderCheck s = .ok () t :=
  Machine.dmcReaderCheck_goesOn fun left => by rw [regionOf_prg (hs.current left)]; decide

theorem DmcInv.apuTicks_goOn {s : State} (hs : DmcInv s) (n : Nat) : ∃ t, apuTicks n s = .ok () t := by
  induction n generalizing s with
  | zero => exact ⟨s, rfl⟩
  | succ n ih =>
    have ready := dmcInv_keptByApu.timersTick (dmcInv_keptByApu.frameSequencerTick hs)
    obtain ⟨t, tick⟩ := ready.dmcReaderCheck_goesOn
    obtain ⟨u, ticks⟩ := ih (dmcInv_keptByApu.dmcReaderCheck tick ready)
    exact ⟨u, by rw [apuTicks, apuTick_eq, tick]; exact ticks⟩

theorem DmcInv.drainApu_goesOn {s : State} (hs : DmcInv s) : ∃ t, drainApu s = .ok () t := by
  refine DmcInv.apuTicks_goOn ?_ _
  exact dmcInv_keptByApu.same (s := s) rfl hs

/-- Settles O51: each part of a step keeps the reader's addresses, and from there every read of the reader goes on, and with
it every tick. -/
theorem ticksNeverFault : Obligations.TicksNeverFault := by
  unfold Obligations.TicksNeverFault
  refine ⟨fun s t hs h => dmcInv_keptByApu.step h hs, fun i s hs => ?_⟩
  have drained : DmcInv (drainPpu (chargeCycles i s)) :=
    dmcInv_keptByApu.drainPpu (dmcInv_keptByApu.same (s := s) rfl hs)
  obtain ⟨u, hu⟩ := drained.drainApu_goesOn
  exact ⟨_, settle_eq_next.2 ⟨u, hu, rfl⟩⟩

end Sys2Proof.Machine
end

section
/-! SUPPORT. What the check of the DMC's reader does where a byte is due, and its place in the APU's tick (R262, R276);
O49. -/

namespace Sys2Proof.Machine

theorem Dmc.irqDue_eq (d : Dmc) : d.irqDue = (decide (d.bytesLeft = 1) && !d.loop && d.irqEn) := by
  have last : (d.bytesLeft - 1 == 0) = decide (d.bytesLeft = 1) := decide_eq_decide.2 sub_eq_zero
  rw [Dmc.irqDue, last]

/-- The DMC after a fetch, field by field (R276). -/
theorem Dmc.fetched_eq (d : Dmc) (b : Byte) :
    d.fetched b = { d with
      buffer := b, bufferFull := true
      curAddr := if decide (d.bytesLeft = 1) && d.loop then d.sampleAddr
        else if d.curAddr = 0xFFFF then 0x8000 else d.curAddr + 1
      bytesLeft := if decide (d.bytesLeft = 1) && d.loop then d.sampleLen else d.bytesLeft - 1
      irqFlag := d.irqFlag || (decide (d.bytesLeft = 1) && !d.loop && d.irqEn) } := by
  unfold Dmc.fetched
  dsimp only
  by_cases last : d.bytesLeft = 1
  · rw [if_pos (sub_eq_zero.2 last), decide_eq_true last]
    cases d.loop <;> simp
  · rw [if_neg (mt sub_eq_zero.1 last), decide_eq_false last]
    simp

theorem Latch.after_if_irqBrk (l : Latch) (due : Bool) :
    l.after (if due then .irqBrk else .none) = if due && decide (l = .none) then .irqBrk else l := by
  cases due
  · rfl
  · exact (Latch.after_irqBrk_eq l).trans (if_congr decide_eq_true_iff.symm rfl rfl)

/-- Settles O49: the two outcomes of the check, and the parts of an APU tick. -/
theorem dmcReaderReads : Obligations.DmcReaderReads := by
  unfold Obligations.DmcReaderReads
  refine ⟨fun s => dmcReaderCheck_idle, fun s empty left mapped => ?fetch, ?tick⟩
  case fetch =>
    obtain ⟨b, t, hr⟩ := memRead_mapped mapped s
    refine ⟨b, t, hr, memRead_dmc hr, ?_⟩
    rw [dmcReaderCheck_fetch empty left hr, raiseInterrupt_eq, Dmc.fetched_eq, Latch.after_if_irqBrk, Dmc.irqDue_eq]
    rfl
  case tick => rintro s u rfl; exact apuTick_eq s

end Sys2Proof.Machine
end

section
/-! SUPPORT. The APU's registers 0x4015 and 0x4017 (R284 to R286), O47, and those of the channels, 0x4000 to 0x4013 (R280 to
R283), O48. -/

namespace Sys2Proof.Machine

/-! ## The status (R285) -/

/-- The status byte's eight bits. -/
theorem Apu.status_bits (a : Apu) (d : Byte) :
    (a.status d).getLsbD 7 = a.dmc.irqFlag ∧ (a.status d).getLsbD 6 = a.frame.frameIrq ∧
    (a.status d).getLsbD 5 = d.getLsbD 0 ∧ (a.status d).getLsbD 4 = (a.dmc.bytesLeft != 0) ∧
    (a.status d).getLsbD 3 = (a.noise.length != 0) ∧ (a.status d).getLsbD 2 = (a.triangle.length != 0) ∧
    (a.status d).getLsbD 1 = (a.pulse2.length != 0) ∧ (a.status d).getLsbD 0 = (a.pulse1.length != 0) := by
  unfold Apu.status
  refine ⟨?_, ?_, ?_, ?_, ?_, ?_, ?_, ?_⟩ <;> simp only [BitVec.getLsbD_append] <;> simp

theorem memRead_status (s : State) :
    memRead 0x4015 s = .ok (s.apu.status (Config.openBus s.draws))
      { s with apu := { s.apu with frame := { s.apu.frame with frameIrq := false } }, draws := s.draws + 1 } :=
  memRead_io (r := 0x15) rfl (by decide) s

/-! ## The enables (R284) -/

theorem memWrite_enables (v : Byte) (s : State) : memWrite 0x4015 v s = writeApuEnables v s :=
  memWrite_io (r := 0x15) rfl (by decide) v s

theorem Apu.writeEnables_eq {a : Apu} {v : Byte} {d : Dmc} (h : (a.writeEnables v).dmc = d) :
    a.writeEnables v = { a with
      pulse1 := { a.pulse1 with enabled := v.getLsbD 0, length := if v.getLsbD 0 then a.pulse1.length else 0 }
      pulse2 := { a.pulse2 with enabled := v.getLsbD 1, length := if v.getLsbD 1 then a.pulse2.length else 0 }
      triangle := { a.triangle with enabled := v.getLsbD 2, length := if v.getLsbD 2 then a.triangle.length else 0 }
      noise := { a.noise with enabled := v.getLsbD 3, length := if v.getLsbD 3 then a.noise.length else 0 }
      dmc := d } := by
  subst h; rfl

/-- Without a sample to start, a write of the enables is done with the enables. -/
theorem memWrite_enables_noStart {s : State} {v : Byte} (h : v.getLsbD 4 = false ∨ s.apu.dmc.bytesLeft ≠ 0) :
    memWrite 0x4015 v s = .ok () (s.withApu (s.apu.writeEnables v)) := by
  rw [memWrite_enables]
  refine if_neg fun starts => ?_
  obtain ⟨on, ended⟩ := Bool.and_eq_true_iff.1 starts
  rcases h with off | left
  · exact Bool.eq_false_iff.1 off on
  · exact left (beq_iff_eq.1 ended)

theorem memWrite_enables_start {s : State} {v : Byte} (on : v.getLsbD 4 = true) (ended : s.apu.dmc.bytesLeft = 0) :
    memWrite 0x4015 v s = dmcReaderCheck (s.withApu (s.apu.writeEnables v)) := by
  rw [memWrite_enables]
  exact if_pos (Bool.and_eq_true_iff.2 ⟨on, beq_iff_eq.2 ended⟩)

theorem memWrite_enables_off {s t : State} {v : Byte} (off : v.getLsbD 4 = false) (h : memWrite 0x4015 v s = .ok () t) :
    t.apu = s.apu.writeEnables v := by
  rw [memWrite_enables_noStart (.inl off)] at h
  cases h; rfl

/-! ## The frame counter (R286) -/

theorem memWrite_frameCounter (v : Byte) (s : State) :
    memWrite 0x4017 v s = .ok () (s.withApu (s.apu.writeFrameCounter v)) :=
  memWrite_io (r := 0x17) rfl (by decide) v s

theorem Apu.writeFrameCounter_eq (a : Apu) (v : Byte) {b : Apu}
    (h : b = { a with frame := { mode5 := v.getLsbD 7, irqInhibit := v.getLsbD 6,
                                 frameIrq := if v.getLsbD 6 then false else a.frame.frameIrq, fcount := 0 } }) :
    a.writeFrameCounter v = if v.getLsbD 7 then b.quarter.half else b := by
  have flag : (a.frame.frameIrq && !v.getLsbD 6) = if v.getLsbD 6 then false else a.frame.frameIrq := by
    cases v.getLsbD 6 <;> simp
  rw [h, ← flag]; rfl

/-- Settles O47: the two registers by their equations; after the second write every enable is off. -/
theorem apuEnablesAndStatus : Obligations.ApuEnablesAndStatus := by
  unfold Obligations.ApuEnablesAndStatus
  refine ⟨fun s => ?status, fun s v d => ⟨?stop, ?running, ?start⟩, ?frameCounter, fun s t u _ hu => ?scenario⟩
  case status =>
    obtain ⟨b7, b6, b5, b4, b3, b2, b1, b0⟩ := s.apu.status_bits (Config.openBus s.draws)
    refine ⟨_, memRead_status s, b7, b6, b5, ?_, ?_, ?_, ?_, ?_⟩
    · rw [b4, bne_iff_ne]
    · rw [b3, bne_iff_ne]
    · rw [b2, bne_iff_ne]
    · rw [b1, bne_iff_ne]
    · rw [b0, bne_iff_ne]
  case stop =>
    rintro off rfl
    rw [memWrite_enables_noStart (.inl off), Apu.writeEnables_eq (Apu.writeEnables_dmc_stop _ off)]
  case running =>
    rintro on left rfl
    rw [memWrite_enables_noStart (.inr left), Apu.writeEnables_eq (Apu.writeEnables_dmc_running _ on left)]
  case start =>
    rintro on ended rfl
    rw [memWrite_enables_start on ended, Apu.writeEnables_eq (Apu.writeEnables_dmc_start _ on ended)]
  case frameCounter =>
    intro s v a ha
    rw [memWrite_frameCounter, Apu.writeFrameCounter_eq s.apu v ha]
  case scenario =>
    rw [memWrite_enables_off (by decide) hu]
    exact ⟨rfl, rfl, rfl, rfl, rfl⟩

/-! ## The channels (R267, R280 to R283) -/

theorem append_eq_ofNat {m n : Nat} (x : BitVec m) (y : BitVec n) :
    x ++ y = BitVec.ofNat (m + n) (x.toNat * 2 ^ n + y.toNat) := by
  rw [← append_toNat, BitVec.ofNat_toNat, BitVec.setWidth_eq]

/-- A write of a period's low byte. -/
theorem periodLow_eq (p : BitVec 11) (v : Byte) :
    p.extractLsb 10 8 ++ v = BitVec.ofNat 11 (p.toNat / 256 * 256 + v.toNat) := by
  have top : (p.extractLsb 10 8).toNat = p.toNat / 256 := by
    have := p.isLt
    rw [BitVec.extractLsb_toNat, Nat.shiftRight_eq_div_pow]; omega
  rw [append_eq_ofNat, top]; rfl

/-- A write of a period's three high bits. -/
theorem periodHigh_eq (p : BitVec 11) (v : Byte) :
    v.extractLsb 2 0 ++ p.extractLsb 7 0 = BitVec.ofNat 11 (v.toNat % 8 * 256 + p.toNat % 256) := by
  rw [append_eq_ofNat, BitVec.extractLsb_toNat, BitVec.extractLsb_toNat]; rfl

/-- The entry that a length register's byte loads (R266, R267). -/
theorem lengthLoad_eq (enabled : Bool) (n v : Byte) :
    lengthLoad enabled n v = if enabled then BitVec.ofNat 8 (lengthTable.getD (v.toNat / 8) 0) else n := by
  have index : (v.extractLsb 7 3).toNat = v.toNat / 8 := by
    have := v.isLt
    rw [BitVec.extractLsb_toNat, Nat.shiftRight_eq_div_pow]; omega
  rw [lengthLoad, index, tableEntry]

theorem memWrite_channel {a : Word} {r : Nat} (ha : a.toNat = 0x4000 + r) (hr : r < 0x14) (v : Byte) (s : State) :
    memWrite a v s = .ok () (s.withApu (s.apu.writeChannel r v)) := by
  rw [memWrite_io ha (by omega)]
  unfold ioWrite
  split
  case h_5 => rfl
  all_goals omega

theorem Apu.writeChannel_pulse1 (a : Apu) (r : Fin 4) (v : Byte) :
    a.writeChannel (0 + r) v = { a with pulse1 := a.pulse1.write r v } := by
  rw [Nat.zero_add]
  exact if_pos r.isLt

theorem Apu.writeChannel_pulse2 (a : Apu) (r : Fin 4) (v : Byte) :
    a.writeChannel (4 + r) v = { a with pulse2 := a.pulse2.write r v } := by
  have offset : 4 + r.val - 4 = r := Nat.add_sub_cancel_left ..
  rw [Apu.writeChannel, if_neg (by omega), if_pos (by omega), offset]

section
variable (v : Byte)

theorem Pulse.write_low (p : Pulse) :
    p.write 2 v = { p with period := BitVec.ofNat 11 (p.period.toNat / 256 * 256 + v.toNat) } := by
  rw [← periodLow_eq]; rfl

theorem Pulse.write_high (p : Pulse) :
    p.write 3 v = { p with
      period := BitVec.ofNat 11 (v.toNat % 8 * 256 + p.period.toNat % 256)
      length := if p.enabled then BitVec.ofNat 8 (lengthTable.getD (v.toNat / 8) 0) else p.length
      seq := 0, env := { p.env with start := true } } := by
  rw [← periodHigh_eq, ← lengthLoad_eq]; rfl

theorem Triangle.write_low (t : Triangle) :
    t.write 2 v = { t with period := BitVec.ofNat 11 (t.period.toNat / 256 * 256 + v.toNat) } := by
  rw [← periodLow_eq]; rfl

theorem Triangle.write_high (t : Triangle) :
    t.write 3 v = { t with
      period := BitVec.ofNat 11 (v.toNat % 8 * 256 + t.period.toNat % 256)
      length := if t.enabled then BitVec.ofNat 8 (lengthTable.getD (v.toNat / 8) 0) else t.length
      linReload := true } := by
  rw [← periodHigh_eq, ← lengthLoad_eq]; rfl

theorem Noise.write_length (c : Noise) :
    c.write 3 v = { c with
      length := if c.enabled then BitVec.ofNat 8 (lengthTable.getD (v.toNat / 8) 0) else c.length
      env := { c.env with start := true } } := by
  rw [← lengthLoad_eq]; rfl

theorem Dmc.write_control (d : Dmc) :
    d.write 0 v = { d with irqEn := v.getLsbD 7, loop := v.getLsbD 6, rateIdx := v.extractLsb 3 0
                           irqFlag := if v.getLsbD 7 then d.irqFlag else false } := by
  have flag : (d.irqFlag && v.getLsbD 7) = if v.getLsbD 7 then d.irqFlag else false := by
    cases v.getLsbD 7 <;> simp
  rw [← flag]; rfl

theorem Dmc.write_address (d : Dmc) :
    d.write 2 v = { d with sampleAddr := BitVec.ofNat 16 (0xC000 + v.toNat * 64) } := by
  rw [← sampleAddress_eq]; rfl

end

/-- The address of register `r` of the channel whose registers start at offset `base`. -/
theorem channelAddress_toNat {base : Nat} (h : base < 0x14) (r : Fin 4) {a : Word}
    (ha : a = BitVec.ofNat 16 (0x4000 + base)) : (a + BitVec.ofNat 16 r).toNat = 0x4000 + (base + r) := by
  rw [ha, BitVec.toNat_add, BitVec.toNat_ofNat, BitVec.toNat_ofNat]; omega

/-- Settles O48: each register's write is its channel's, whose period fields and length are put together as the rules say. -/
theorem apuChannelWrites : Obligations.ApuChannelWrites := by
  unfold Obligations.ApuChannelWrites
  intro s v load volume low high pulse
  have channel {a : Word} {r : Nat} {b : Apu} (ha : a.toNat = 0x4000 + r) (hr : r < 0x14)
      (hb : s.apu.writeChannel r v = b) : memWrite a v s = .ok () (s.withApu b) := by
    rw [memWrite_channel ha hr, hb]
  have pulse_eq (r : Fin 4) (p : Pulse) : p.write r v = pulse r p := by
    match r with
    | 0 => rfl
    | 1 => rfl
    | 2 => exact p.write_low v
    | 3 => exact p.write_high v
  refine ⟨fun r => ?_, fun r => ?_, ?_, ?_, ?_, ?_, ?_, ?_, ?_, ?_, ?_, ?_, ?_, ?_⟩
  · rw [← pulse_eq]
    exact channel (channelAddress_toNat (base := 0) (by decide) r rfl) (by omega) (Apu.writeChannel_pulse1 _ r v)
  · rw [← pulse_eq]
    exact channel (channelAddress_toNat (base := 4) (by decide) r rfl) (by omega) (Apu.writeChannel_pulse2 _ r v)
  · exact channel (r := 0x08) rfl (by decide) rfl
  · exact channel (r := 0x09) rfl (by decide) rfl
  · exact channel (r := 0x0A) rfl (by decide) (congrArg ({ s.apu with triangle := · }) (s.apu.triangle.write_low v))
  · exact channel (r := 0x0B) rfl (by decide) (congrArg ({ s.apu with triangle := · }) (s.apu.triangle.write_high v))
  · exact channel (r := 0x0C) rfl (by decide) rfl
  · exact channel (r := 0x0D) rfl (by decide) rfl
  · exact channel (r := 0x0E) rfl (by decide) rfl
  · exact channel (r := 0x0F) rfl (by decide) (congrArg ({ s.apu with noise := · }) (s.apu.noise.write_length v))
  · exact channel (r := 0x10) rfl (by decide) (congrArg ({ s.apu with dmc := · }) (s.apu.dmc.write_control v))
  · exact channel (r := 0x11) rfl (by decide) rfl
  · exact channel (r := 0x12) rfl (by decide) (congrArg ({ s.apu with dmc := · }) (s.apu.dmc.write_address v))
  · exact channel (r := 0x13) rfl (by decide) rfl

end Sys2Proof.Machine
end

section
/-! SUPPORT. Counters and timers (R267 to R271, R273, R275, R277): what as many clocks as a period holds come to. -/

namespace Sys2Proof.Machine

/-! ## Counting down -/

theorem repeat_eq_iterate {α : Type} (f : α → α) (n : Nat) (a : α) : Nat.repeat f n a = f^[n] a := by
  induction n with
  | zero => rfl
  | succ n ih => rw [Function.iterate_succ_apply', ← ih]; rfl

section
variable {α : Type} {w : Nat} {f : α → α} {counter : BitVec w → α} (run : ∀ x, x ≠ 0 → f (counter x) = counter (x - 1))
include run

/-- `k` clocks of a counter that counts down by one until it is 0, from a count of at least `k`. -/
theorem iterate_countdown {n k : Nat} (hn : n < 2 ^ w) (hk : k ≤ n) :
    f^[k] (counter (BitVec.ofNat w n)) = counter (BitVec.ofNat w (n - k)) := by
  induction k with
  | zero => rfl
  | succ k ih =>
    have next : BitVec.ofNat w (n - k) - 1 = BitVec.ofNat w (n - (k + 1)) := by
      rw [show n - k = n - (k + 1) + 1 by omega, BitVec.ofNat_add]
      exact BitVec.add_sub_cancel ..
    have left : BitVec.ofNat w (n - k) ≠ 0 := fun e => by
      have zero : (BitVec.ofNat w (n - k)).toNat = 0 := (congrArg BitVec.toNat e).trans BitVec.toNat_zero
      rw [BitVec.toNat_ofNat, Nat.mod_eq_of_lt (by omega)] at zero
      omega
    rw [Function.iterate_succ_apply', ih (by omega), run _ left, next]

/-- A whole period of a timer: one clock loads it with `period - 1`, and as many more bring it to 0. -/
theorem repeat_period {a : α} {period : Nat} (pos : 1 ≤ period) (le : period ≤ 2 ^ w)
    (load : f a = counter (BitVec.ofNat w (period - 1))) : Nat.repeat f period a = counter 0 := by
  obtain ⟨n, rfl⟩ := Nat.exists_eq_add_of_le' pos
  rw [Nat.add_sub_cancel] at load
  rw [repeat_eq_iterate, Function.iterate_succ_apply, load, iterate_countdown run le (Nat.le_refl n), Nat.sub_self]
  rfl

end

/-! ## Length counters and the linear counter (R267, R268, R273) -/

@[simp] theorem lengthClock_halted (n : Byte) : lengthClock true n = n := if_neg (by simp)

theorem lengthClock_toNat (n : Byte) : (lengthClock false n).toNat = n.toNat - 1 := by
  by_cases zero : n = 0
  · rw [zero]; rfl
  · have pos := BitVec.toNat_ne.1 zero
    rw [lengthClock, if_pos ⟨zero, rfl⟩]
    bv_omega

theorem repeat_lengthClock_toNat (n : Byte) (k : Nat) : (Nat.repeat (lengthClock false) k n).toNat = n.toNat - k := by
  induction k with
  | zero => rfl
  | succ k ih => exact (lengthClock_toNat _).trans (congrArg (· - 1) ih)

theorem Triangle.linearClock_eq (t : Triangle) :
    t.linearClock = { t with
      lin := if t.linReload then t.linReloadVal else BitVec.ofNat 7 (t.lin.toNat - 1)
      linReload := t.linReload && t.control } := by
  have count : (if t.lin ≠ 0 then t.lin - 1 else t.lin) = BitVec.ofNat 7 (t.lin.toNat - 1) := by
    refine BitVec.eq_of_toNat_eq ?_
    split <;> bv_omega
  have reload : (if t.control then t.linReload else false) = (t.linReload && t.control) := by
    cases t.control <;> simp
  rw [Triangle.linearClock, count, reload]

/-! ## Envelopes (R269) -/

section
variable {e : Envelope}

theorem Envelope.clock_start (h : e.start = true) : e.clock = { e with start := false, decay := 15, div := e.vol } :=
  if_pos h

theorem Envelope.clock_divide (h : e.start = false) (hd : e.div ≠ 0) : e.clock = { e with div := e.div - 1 } :=
  (if_neg (Bool.eq_false_iff.1 h)).trans (if_neg hd)

theorem Envelope.clock_decay (h : e.start = false) (hd : e.div = 0) :
    e.clock = { e with
      div := e.vol, decay := if e.decay ≠ 0 then e.decay - 1 else if e.halt then 15 else 0 } := by
  have stays : (if e.decay ≠ 0 then e.decay - 1 else if e.halt then 15 else e.decay) =
      if e.decay ≠ 0 then e.decay - 1 else if e.halt then 15 else 0 := by
    by_cases zero : e.decay = 0
    · rw [zero]
    · rw [if_pos zero, if_pos zero]
  rw [← stays]
  exact (if_neg (Bool.eq_false_iff.1 h)).trans (if_pos hd)

/-- The envelope at the beginning of the period of decay level `level`. -/
def Envelope.counting (e : Envelope) (level : BitVec 4) : Envelope :=
  { e with start := false, div := e.vol, decay := level }

/-- A period of `vol + 1` clocks brings the decay level down by one. -/
theorem Envelope.clock_period (e : Envelope) {level : BitVec 4} (h : level ≠ 0) :
    Envelope.clock^[e.vol.toNat + 1] (e.counting level) = e.counting (level - 1) := by
  have divide : ∀ x, x ≠ 0 → Envelope.clock { e.counting level with div := x } = { e.counting level with div := x - 1 } :=
    fun x hx => Envelope.clock_divide rfl hx
  have run := iterate_countdown divide e.vol.isLt (Nat.le_refl _)
  rw [BitVec.ofNat_toNat, BitVec.setWidth_eq, Nat.sub_self] at run
  rw [Function.iterate_succ_apply']
  refine (congrArg Envelope.clock run).trans ((Envelope.clock_decay rfl rfl).trans ?_)
  exact congrArg e.counting (if_pos h)

/-- An envelope just started counts down from 15, one in each period. -/
theorem Envelope.repeat_clock_decay (h : e.start = true) {k : Nat} (hk : k ≤ 15) :
    (Nat.repeat Envelope.clock (1 + k * (e.vol.toNat + 1)) e).decay.toNat = 15 - k := by
  have started : e.clock = e.counting (BitVec.ofNat 4 15) := Envelope.clock_start h
  rw [repeat_eq_iterate, Nat.add_comm, Function.iterate_succ_apply, started, Nat.mul_comm, Function.iterate_mul,
    iterate_countdown (fun _ => e.clock_period) (by decide) hk]
  exact (BitVec.toNat_ofNat ..).trans (Nat.mod_eq_of_lt (by omega))

end

/-! ## The timers of the channels (R271, R273, R275, R277) -/

theorem Pulse.timerTick_count {p : Pulse} (h : p.timer ≠ 0) : p.timerTick = { p with timer := p.timer - 1 } := if_neg h

theorem Pulse.timerTick_clock {p : Pulse} (h : p.timer = 0) :
    p.timerTick = { p with timer := p.period, seq := p.seq - 1 } := if_pos h

theorem Pulse.repeat_timerTick {p : Pulse} (h : p.timer = 0) :
    Nat.repeat Pulse.timerTick (p.period.toNat + 1) p = { p with seq := p.seq - 1 } := by
  refine (repeat_period (counter := fun x => { p with timer := x, seq := p.seq - 1 }) (fun x hx => Pulse.timerTick_count hx)
    (Nat.le_add_left ..) p.period.isLt ?_).trans (by rw [← h])
  rw [Nat.add_sub_cancel, BitVec.ofNat_toNat, BitVec.setWidth_eq, Pulse.timerTick_clock h]

theorem Triangle.timerTick_count {t : Triangle} (h : t.timer ≠ 0) : t.timerTick = { t with timer := t.timer - 1 } :=
  if_neg h

theorem Triangle.timerTick_clock {t : Triangle} (h : t.timer = 0) {seq : BitVec 5}
    (hseq : seq = if t.length ≠ 0 ∧ t.lin ≠ 0 then t.seq + 1 else t.seq) :
    t.timerTick = { t with timer := t.period, seq := seq } := by
  rw [hseq]; exact if_pos h

theorem Triangle.repeat_timerTick {t : Triangle} (h : t.timer = 0) {seq : BitVec 5}
    (hseq : seq = if t.length ≠ 0 ∧ t.lin ≠ 0 then t.seq + 1 else t.seq) :
    Nat.repeat Triangle.timerTick (t.period.toNat + 1) t = { t with seq := seq } := by
  refine (repeat_period (counter := fun x => { t with timer := x, seq := seq }) (fun x hx => Triangle.timerTick_count hx)
    (Nat.le_add_left ..) t.period.isLt ?_).trans (by rw [← h])
  rw [Nat.add_sub_cancel, BitVec.ofNat_toNat, BitVec.setWidth_eq, Triangle.timerTick_clock h hseq]

/-- The noise channel's period, in APU ticks. -/
def Noise.period (c : Noise) : Nat := tableEntry noisePeriods c.periodIdx.toNat

theorem noisePeriods_range (i : BitVec 4) :
    1 ≤ tableEntry noisePeriods i.toNat ∧ tableEntry noisePeriods i.toNat ≤ 2 ^ 12 := by
  revert i; decide

theorem Noise.timerTick_count {c : Noise} (h : c.timer ≠ 0) : c.timerTick = { c with timer := c.timer - 1 } := if_neg h

theorem Noise.timerTick_clock {c : Noise} (h : c.timer = 0) :
    c.timerTick = { c with timer := BitVec.ofNat 12 (c.period - 1), lfsr := noiseShift c.mode c.lfsr } := if_pos h

theorem Noise.repeat_timerTick {c : Noise} (h : c.timer = 0) :
    Nat.repeat Noise.timerTick c.period c = { c with lfsr := noiseShift c.mode c.lfsr } := by
  obtain ⟨pos, le⟩ := noisePeriods_range c.periodIdx
  exact (repeat_period (counter := fun x => { c with timer := x, lfsr := noiseShift c.mode c.lfsr })
    (fun x hx => Noise.timerTick_count hx) pos le (Noise.timerTick_clock h)).trans (by rw [← h])

/-- The DMC's period, in APU ticks. -/
def Dmc.period (d : Dmc) : Nat := tableEntry dmcPeriods d.rateIdx.toNat

theorem dmcPeriods_range (i : BitVec 4) :
    1 ≤ tableEntry dmcPeriods i.toNat ∧ tableEntry dmcPeriods i.toNat ≤ 2 ^ 9 := by
  revert i; decide

theorem Dmc.timerTick_count {d : Dmc} (h : d.timer ≠ 0) : d.timerTick = { d with timer := d.timer - 1 } := if_neg h

/-- The output unit neither reads nor changes the timer. -/
theorem Dmc.outputClock_setTimer (d : Dmc) (x : BitVec 9) :
    ({ d with timer := x } : Dmc).outputClock = { d.outputClock with timer := x } := by
  unfold Dmc.outputClock
  dsimp only
  split_ifs <;> rfl

theorem Dmc.outputClock_timer (d : Dmc) : d.outputClock.timer = d.timer := by
  show ({ d with timer := d.timer } : Dmc).outputClock.timer = d.timer
  rw [Dmc.outputClock_setTimer]

theorem Dmc.timerTick_clock {d : Dmc} (h : d.timer = 0) :
    d.timerTick = { d.outputClock with timer := BitVec.ofNat 9 (d.period - 1) } :=
  (if_pos h).trans (d.outputClock_setTimer _)

theorem Dmc.repeat_timerTick {d : Dmc} (h : d.timer = 0) : Nat.repeat Dmc.timerTick d.period d = d.outputClock := by
  obtain ⟨pos, le⟩ := dmcPeriods_range d.rateIdx
  refine (repeat_period (counter := fun x => { d.outputClock with timer := x }) (fun x hx => Dmc.timerTick_count hx) pos le
    (Dmc.timerTick_clock h)).trans ?_
  rw [← h, ← d.outputClock_timer]

end Sys2Proof.Machine
end

section
/-! SUPPORT. The sweep units, the DMC's level and the mixer (R270, R277, R288); and O46, from these and the counters. -/

namespace Sys2Proof.Machine

/-! ## The sweep unit (R270) -/

theorem Pulse.target_eq (one : Bool) (p : Pulse) :
    p.target one =
      let change : Int := (p.period.toNat / 2 ^ p.sweepShift.toNat : Nat)
      if p.sweepNeg then (p.period.toNat : Int) - change - (if one then 1 else 0) else (p.period.toNat : Int) + change := by
  rw [Pulse.target, BitVec.toNat_ushiftRight, Nat.shiftRight_eq_div_pow]

theorem Pulse.muted_iff {one : Bool} {p : Pulse} :
    p.muted one = true ↔ p.period.toNat < 8 ∨ p.target one > 0x7FF := by
  rw [Pulse.muted, Bool.or_eq_true, decide_eq_true_iff, decide_eq_true_iff]

/-- A shift takes at most half of the period away. -/
theorem Pulse.target_nonneg {one : Bool} {p : Pulse} (shift : p.sweepShift ≠ 0) (period : 8 ≤ p.period.toNat) :
    0 ≤ p.target one := by
  have half : p.period.toNat / 2 ^ p.sweepShift.toNat ≤ p.period.toNat / 2 := by
    have : p.sweepShift.toNat ≠ 0 := fun e => shift (BitVec.eq_of_toNat_eq e)
    exact Nat.div_le_div_left (Nat.le_self_pow this 2) (by decide)
  rw [Pulse.target_eq]
  generalize p.period.toNat / 2 ^ p.sweepShift.toNat = change at half ⊢
  dsimp only
  split_ifs <;> omega

theorem toNat_ofInt_of_range {t : Int} (low : 0 ≤ t) (high : t ≤ 0x7FF) : ((BitVec.ofInt 11 t).toNat : Int) = t := by
  rw [BitVec.toNat_ofInt]; omega

theorem Pulse.sweepClock_period_toNat (one : Bool) (p : Pulse) :
    ((p.sweepClock one).period.toNat : Int) =
      if p.sweepDiv = 0 ∧ p.sweepEn = true ∧ p.sweepShift ≠ 0 ∧ 8 ≤ p.period.toNat ∧ p.target one ≤ 0x7FF
      then p.target one else p.period.toNat := by
  have audible : (!p.muted one) = true ↔ 8 ≤ p.period.toNat ∧ p.target one ≤ 0x7FF := by
    rw [Bool.not_eq_true', ← Bool.not_eq_true, Pulse.muted_iff, not_or, Nat.not_lt, not_lt]
  unfold Pulse.sweepClock
  simp only [audible]
  split
  case isTrue due => exact toNat_ofInt_of_range (Pulse.target_nonneg due.2.2.1 due.2.2.2.1) due.2.2.2.2
  case isFalse => rfl

theorem Pulse.sweepClock_eq (one : Bool) (p : Pulse) :
    p.sweepClock one = { p with
      period := (p.sweepClock one).period
      sweepDiv := if p.sweepDiv = 0 ∨ p.sweepReload = true then p.sweepPeriod else p.sweepDiv - 1
      sweepReload := false } := by
  have reload : (if p.sweepDiv = 0 ∨ p.sweepReload = true then false else p.sweepReload) = false := by
    split
    case isTrue => rfl
    case isFalse kept => exact Bool.eq_false_iff.2 fun on => kept (.inr on)
  conv_lhs => rw [Pulse.sweepClock, reload]
  rfl

/-! ## The DMC's level (R277) -/

theorem dmcLevel_toNat (d : Dmc) :
    (dmcLevel d).toNat =
      if d.silence then d.level.toNat
      else if d.shift.getLsbD 0 then (if d.level.toNat ≤ 125 then d.level.toNat + 2 else d.level.toNat)
      else if 2 ≤ d.level.toNat then d.level.toNat - 2 else d.level.toNat := by
  unfold dmcLevel
  split_ifs <;> bv_omega

/-! ## The mixer (R288) -/

/-- Each table of the mixer rises with its index. -/
theorem mix_le {c k : Rat} {n m : Nat} (hc : 0 ≤ c) (hk : 0 ≤ k) (pos : 0 < n) (h : n ≤ m) :
    c / (k / n + 100) ≤ c / (k / m + 100) := by
  have hn : (0 : Rat) < n := Nat.cast_pos.2 pos
  have hm : (n : Rat) ≤ m := Nat.cast_le.2 h
  have := hn.trans_le hm
  gcongr

theorem pulseMix_range {n : Nat} (h : n ≤ 30) : 0 ≤ pulseMix n ∧ pulseMix n ≤ 9552 / 100 / (8128 / 30 + 100) := by
  unfold pulseMix
  split
  case isTrue => constructor <;> positivity
  case isFalse zero => exact ⟨by positivity, mix_le (by positivity) (by positivity) (Nat.pos_of_ne_zero zero) h⟩

theorem tndMix_range {n : Nat} (h : n ≤ 202) : 0 ≤ tndMix n ∧ tndMix n ≤ 16367 / 100 / (24329 / 202 + 100) := by
  unfold tndMix
  split
  case isTrue => constructor <;> positivity
  case isFalse zero => exact ⟨by positivity, mix_le (by positivity) (by positivity) (Nat.pos_of_ne_zero zero) h⟩

theorem Apu.output_range (a : Apu) : 0 ≤ a.output ∧ a.output < 1 := by
  obtain ⟨pulse0, pulse1⟩ := pulseMix_range a.pulseIndex_le
  obtain ⟨tnd0, tnd1⟩ := tndMix_range a.tndIndex_le
  have loudest : (9552 / 100 / (8128 / 30 + 100) + 16367 / 100 / (24329 / 202 + 100) : Rat) < 1 := by norm_num
  exact ⟨add_nonneg pulse0 tnd0, (add_le_add pulse1 tnd1).trans_lt loudest⟩

/-- Settles O46: each unit by its equations, a period of each timer by `repeat_period`, and the mixer by the bounds of its
two tables. -/
theorem soundUnits : Obligations.SoundUnits := by
  unfold Obligations.SoundUnits
  intro sweepTarget volume duty noisePeriod dmcPeriod
  have target (one : Bool) (p : Pulse) : p.target one = sweepTarget one p := p.target_eq one
  refine ⟨rfl, repeat_lengthClock_toNat, lengthClock_halted, lengthLoad_eq,
    fun e => ⟨Envelope.clock_start, Envelope.clock_divide, Envelope.clock_decay⟩,
    fun e k start hk => Envelope.repeat_clock_decay start hk, Triangle.linearClock_eq,
    fun one p => ⟨_, p.sweepClock_eq one, target one p ▸ p.sweepClock_period_toNat one⟩,
    fun p => Pulse.timerTick_count, fun p h => ⟨Pulse.timerTick_clock h, Pulse.repeat_timerTick h⟩,
    fun t => Triangle.timerTick_count,
    fun t seq h hseq => ⟨Triangle.timerTick_clock h hseq, Triangle.repeat_timerTick h hseq⟩,
    fun c => Noise.timerTick_count, fun c h => ⟨Noise.timerTick_clock h, Noise.repeat_timerTick h⟩,
    fun d => Dmc.timerTick_count, fun d h => ⟨Dmc.timerTick_clock h, Dmc.repeat_timerTick h⟩,
    noiseShift_toNat, fun mode l => noiseShift_ne_zero mode, fun d => ?outputUnit, fun d => ?levelStep,
    fun p one => ?pulse, fun t => ⟨fun h => if_pos h, fun h => if_neg (by omega)⟩, fun c => rfl, fun a n m => ?mixer⟩
  case outputUnit =>
    have level := dmcLevel_toNat d
    refine ⟨dmcLevel d, fun silent => if_pos silent, fun sounding up => ?_, fun sounding down => ?_,
      Dmc.outputClock_within, Dmc.outputClock_nextByte, Dmc.outputClock_silence⟩
    · rw [level, sounding, up]; rfl
    · rw [level, sounding, down]; rfl
  case levelStep =>
    rw [dmcLevel_toNat]
    split_ifs <;> omega
  case pulse =>
    unfold Pulse.output
    simp only [Pulse.muted_iff, target, or_assoc]
    rfl
  case mixer =>
    rintro rfl rfl
    exact ⟨rfl, a.output_range⟩

end Sys2Proof.Machine
end

section
/-! SUPPORT. Audio batches (R350, R354, R356): O52. -/

namespace Sys2Proof.Machine

theorem audioBatch_pos : 0 < Config.audioBatch := Nat.succ_pos _

/-- What appending `n` samples of value `x` to `batch` gives: fewer than a batch kept, full batches delivered, and no sample
lost, added or moved (R356). -/
structure AppendsSamples (n : Nat) (x : Rat) (batch : List Rat) (r : List Rat × List (List Rat)) : Prop where
  kept : r.1.length < Config.audioBatch
  full : ∀ b ∈ r.2, b.length = Config.audioBatch
  inOrder : r.2.flatten ++ r.1 = batch ++ List.replicate n x

/-- One more sample fills the batch, which is delivered and leaves an empty one, or it does not. -/
theorem appendSamples_appends (n : Nat) (x : Rat) {batch : List Rat} (h : batch.length < Config.audioBatch) :
    AppendsSamples n x batch (appendSamples n x batch) := by
  induction n generalizing batch with
  | zero => exact ⟨h, by simp [appendSamples], by simp [appendSamples]⟩
  | succ n ih =>
    have grown : (batch ++ [x]).length = batch.length + 1 := List.length_append
    rw [appendSamples]
    dsimp only
    split
    case isTrue filled =>
      obtain ⟨kept, full, inOrder⟩ := ih (batch := []) audioBatch_pos
      refine ⟨kept, List.forall_mem_cons.2 ⟨filled, full⟩, ?_⟩
      rw [List.flatten_cons, List.append_assoc, inOrder, List.replicate_succ]; simp
    case isFalse notFilled =>
      obtain ⟨kept, full, inOrder⟩ := ih (batch := batch ++ [x]) (by omega)
      exact ⟨kept, full, by rw [inOrder, List.replicate_succ]; simp⟩

/-- Settles O52: the samples of a step are so many appended to its batch. -/
theorem audioBatches : Obligations.AudioBatches := by
  unfold Obligations.AudioBatches
  refine ⟨fun n x batch h => ?_, fun s h => ?_⟩
  · obtain ⟨kept, full, inOrder⟩ := appendSamples_appends n x h
    exact ⟨kept, full, inOrder⟩
  · obtain ⟨kept, full, inOrder⟩ := appendSamples_appends (s.clock.accSample / Config.sampleDivisor) s.apu.output h
    exact ⟨_, _, rfl, kept, full, inOrder⟩

end Sys2Proof.Machine
end

section
/-! SUPPORT. The interrupt latch and the interrupt check (R384 to R387, R414): O33 and O34. -/

namespace Sys2Proof.Machine

/-- An NMI raised displaces an IRQ or BRK, and leaves a Reset (R384). -/
theorem Latch.after_nmi_eq (l : Latch) : l.after .nmi = if l = .none ∨ l = .irqBrk then .nmi else l := by
  cases l <;> rfl

/-- A Reset raised displaces every other kind (R384). -/
theorem Latch.after_reset_eq (l : Latch) : l.after .reset = .reset := by cases l <;> rfl

/-- A raise that replaces the latch under a condition does nothing else, and without it nothing. -/
theorem raiseInterrupt_eq_ite {k : IntKind} {l : Latch} {s : State} {p : Prop} [Decidable p]
    (h : s.latch.after k = if p then l else s.latch) : raiseInterrupt k s = if p then { s with latch := l } else s := by
  rw [raiseInterrupt_eq, h]; split_ifs <;> rfl

/-- Settles O33: what each kind makes of the latch is all that a raise does. -/
theorem latchRules : Obligations.LatchRules := by
  unfold Obligations.LatchRules
  intro s
  exact ⟨rfl, raiseInterrupt_eq_ite s.latch.after_cancel, raiseInterrupt_eq_ite s.latch.after_irqBrk_eq,
    raiseInterrupt_eq_ite s.latch.after_nmi_eq, by rw [raiseInterrupt_eq, Latch.after_reset_eq]⟩

theorem resolveInterrupt_masked {s : State} (latched : s.latch = .irqBrk) (masked : s.cpu.i = true)
    (noBreak : s.cpu.brk = false) : resolveInterrupt s = s := by
  simp only [resolveInterrupt, latched, masked, noBreak, Bool.not_false, Bool.and_self, if_true]

theorem resolveInterrupt_irq {s : State} (latched : s.latch = .irqBrk) (enabled : s.cpu.i = false)
    (noBreak : s.cpu.brk = false) : resolveInterrupt s = takeInterrupt 0xFFFE 7 s := by
  simp only [resolveInterrupt, latched, enabled, noBreak, Bool.false_and, Bool.false_eq_true, if_false]

/-- Settles O34: by the content of the latch, then the mask and the break state. -/
theorem interruptCheck : Obligations.InterruptCheck := by
  unfold Obligations.InterruptCheck
  intro s entry
  have taken (vec : Word) (n : Nat) : takeInterrupt vec n s = entry vec n := takeInterrupt_eq vec n s
  refine ⟨fun h => ?_, resolveInterrupt_masked, fun h enabled noBreak => ?_, fun h pending => ?_, fun h => ?_, fun h => ?_⟩
  · rw [resolveInterrupt, h]
  · rw [resolveInterrupt_irq h enabled noBreak, taken]
  · rw [resolveInterrupt_of_brk h pending, taken]
  · rw [resolveInterrupt, h]; exact taken _ _
  · rw [resolveInterrupt, h]; rfl

end Sys2Proof.Machine
end

section
/-! SUPPORT. What holds between steps (R353, R356, R395), O35; and at reset, O60. -/

namespace Sys2Proof.Machine

/-- A fetch is a chain of bus reads and advances of PC (R91): what they keep, it keeps. -/
theorem fetch_preserves_reads (P : State → Prop) (hpc : ∀ {s} (a : Word), P s → P (s.setPc a))
    (hread : ∀ {a v s t}, memRead a s = .ok v t → P s → P t) {i : Instr} {s t : State} (h : fetch s = .ok i t) (hs : P s) :
    P t := by
  refine fetch_preserves P ?_ h hs
  intro b u v hb hu
  obtain ⟨w, hr, rfl⟩ := fetchByte_eq_ok.1 hb
  exact hpc _ (hread hr hu)

/-! ## The accumulators and the batch (R350, R353, R356) -/

/-- The accumulators of the PPU and the APU and the batch, which an instruction leaves alone. -/
structure SameBooks (s t : State) : Prop where
  accPpu : t.clock.accPpu = s.clock.accPpu
  accApu : t.clock.accApu = s.clock.accApu
  batch : t.batch = s.batch

theorem SameBooks.write {s t u : State} (h : SameBooks s t) (hw : WriteFrame t u) : SameBooks s u := by
  unfold WriteFrame at hw
  rw [hw]
  exact ⟨h.accPpu, h.accApu, h.batch⟩

theorem SameBooks.withCpu {s t : State} (c : Cpu) (h : SameBooks s t) : SameBooks s (t.withCpu c) :=
  ⟨h.accPpu, h.accApu, h.batch⟩

theorem fetch_sameBooks {i : Instr} {s t : State} (h : fetch s = .ok i t) : SameBooks s t :=
  fetch_preserves_reads (SameBooks s) (fun _ hs => hs.withCpu _) (fun hr hs => hs.write (memRead_frame hr).write) h
    ⟨rfl, rfl, rfl⟩

theorem exec_sameBooks {i : Instr} {s t : State} (h : exec i s = .next t) : SameBooks s t :=
  exec_preserves (SameBooks s) (fun c hs => hs.withCpu c) (fun hr hs => hs.write (memRead_frame hr).write)
    (fun hw hs => hs.write (memWrite_frame hw)) (fun hs => hs.write rfl) h ⟨rfl, rfl, rfl⟩

/-- The ticks take whole ticks' worth out of the charged accumulators and leave the batch alone (R350). -/
theorem drains_books {i : Instr} {s t : State} (h : drainApu (drainPpu (chargeCycles i s)) = .ok () t) :
    t.clock.accPpu = (s.clock.accPpu + stepCycles i s * 12) % 4 ∧
    t.clock.accApu = (s.clock.accApu + stepCycles i s * 12) % 24 ∧ t.batch = s.batch := by
  have hframe := apuTicks_frame h
  unfold drainPpu at hframe
  rw [ppuTicks_frame] at hframe
  rw [hframe]
  exact ⟨rfl, rfl, rfl⟩

/-- A step charges the accumulators of the PPU and the APU with its cycles, and appends its samples to the batch. -/
theorem step_books {s t : State} (h : step s = .next t) :
    ∃ cycles samples x, t.clock.accPpu = (s.clock.accPpu + cycles * 12) % 4 ∧
      t.clock.accApu = (s.clock.accApu + cycles * 12) % 24 ∧ t.batch = (appendSamples samples x s.batch).1 := by
  obtain ⟨-, -, i, u, v, w, hfetch, hexec, hdrain, rfl⟩ := step_eq_next.1 h
  have fetched := fetch_sameBooks hfetch
  have executed := exec_sameBooks hexec
  obtain ⟨ppu, apu, batch⟩ := drains_books hdrain
  rw [executed.accPpu, fetched.accPpu] at ppu
  rw [executed.accApu, fetched.accApu] at apu
  rw [executed.batch, fetched.batch] at batch
  rw [resolveInterrupt_frame]
  exact ⟨stepCycles i v, w.clock.accSample / Config.sampleDivisor, w.apu.output, ppu, apu, by
    show (appendSamples _ _ w.batch).1 = _; rw [batch]; rfl⟩

theorem ClockInv.step {s t : State} (hs : ClockInv s) (h : Machine.step s = .next t) : ClockInv t := by
  obtain ⟨cycles, -, -, ppu, apu, -⟩ := step_books h
  have := hs.ppu
  have := hs.apu
  exact ⟨by omega, by omega⟩

theorem BatchInv.step {s t : State} (hs : BatchInv s) (h : Machine.step s = .next t) : BatchInv t := by
  obtain ⟨-, samples, x, -, -, batch⟩ := step_books h
  unfold BatchInv
  rw [batch]
  exact (appendSamples_appends samples x hs).kept

/-! ## The latch (R386, R387, R395) -/

/-- What the interrupt check needs to leave nothing pending: no Reset, whose entry keeps the break state, and no break without
an interrupt that clears it. -/
structure CheckReady (s : State) : Prop where
  noReset : s.latch ≠ .reset
  breakLatched : s.cpu.brk = true → s.latch ≠ .none

theorem LatchInv.noReset {s : State} (hs : LatchInv s) : s.latch ≠ .reset := by
  rcases hs.latch with h | ⟨h, -⟩ <;> rw [h] <;> decide

/-- An IRQ or NMI raised, or nothing, puts no Reset in the latch and never empties it. -/
theorem Latch.after_irq_or_nmi {k : IntKind} (hk : k = .none ∨ k = .irqBrk ∨ k = .nmi) (l : Latch) :
    (l ≠ .reset → l.after k ≠ .reset) ∧ (l ≠ .none → l.after k ≠ .none) := by
  rcases hk with rfl | rfl | rfl <;> cases l <;> decide

theorem CheckReady.raised {s t : State} (hs : CheckReady s) (hcpu : t.cpu = s.cpu) {k : IntKind}
    (hk : k = .none ∨ k = .irqBrk ∨ k = .nmi) (hl : t.latch = s.latch.after k) : CheckReady t := by
  obtain ⟨noReset, nonempty⟩ := Latch.after_irq_or_nmi hk s.latch
  constructor
  · rw [hl]; exact noReset hs.noReset
  · rw [hl, hcpu]; exact fun pending => nonempty (hs.breakLatched pending)

/-- The check takes what is not masked, and an entry other than Reset's clears the break state (R387). -/
theorem CheckReady.resolveInterrupt {s : State} (hs : CheckReady s) : LatchInv (Machine.resolveInterrupt s) := by
  obtain ⟨noReset, breakLatched⟩ := hs
  cases latched : s.latch with
  | none =>
    rw [Machine.resolveInterrupt, latched]
    exact ⟨.inl latched, Bool.eq_false_iff.2 fun pending => breakLatched pending latched⟩
  | reset => exact absurd latched noReset
  | nmi => rw [Machine.resolveInterrupt, latched]; exact ⟨.inl rfl, rfl⟩
  | irqBrk =>
    cases pending : s.cpu.brk with
    | true => rw [resolveInterrupt_of_brk latched pending]; exact ⟨.inl rfl, rfl⟩
    | false =>
      cases masked : s.cpu.i with
      | true => rw [resolveInterrupt_masked latched masked pending]; exact ⟨.inr ⟨latched, masked⟩, pending⟩
      | false => rw [resolveInterrupt_irq latched masked pending]; exact ⟨.inl rfl, rfl⟩

/-! ### No bus access raises Reset -/

theorem memRead_noReset {a : Word} {v : Byte} {s t : State} (h : memRead a s = .ok v t) (hs : s.latch ≠ .reset) :
    t.latch ≠ .reset := by
  rcases (memRead_frame h).2.1 with same | ⟨-, cancelled⟩
  · rw [same]; exact hs
  · rw [cancelled]; decide

theorem dmcReaderCheck_noReset {s t : State} (h : dmcReaderCheck s = .ok () t) (hs : s.latch ≠ .reset) :
    t.latch ≠ .reset := by
  rcases dmcReaderCheck_cases h with ⟨-, rfl⟩ | ⟨-, -, b, u, hr, rfl⟩
  · exact hs
  · exact (Latch.after_irq_or_nmi (by split <;> decide) u.latch).1 (memRead_noReset hr hs)

theorem ioWrite_noReset {r : Nat} {v : Byte} {s t : State} (h : ioWrite r v s = .ok () t) (hs : s.latch ≠ .reset) :
    t.latch ≠ .reset := by
  unfold ioWrite at h
  split at h
  case h_1 =>
    obtain ⟨_, u, hr, hk⟩ := Res.bind_eq_ok.1 h
    cases hk
    exact oamDmaCopy_preserves (t := u) (fun u => u.latch ≠ .reset) v memRead_noReset (fun _ _ hs => hs) hr hs
  case h_2 =>
    unfold writeApuEnables at h
    dsimp only at h
    split at h
    · exact dmcReaderCheck_noReset h hs
    · cases h; exact hs
  all_goals cases h; exact hs

theorem ppuRegWrite_latch {r : Nat} {v : Byte} {s t : State} (h : ppuRegWrite r v s = .ok () t) : t.latch = s.latch := by
  rcases ppuRegWrite_cases h with ⟨p, rfl⟩ | rfl | ⟨u, hw, rfl⟩
  · rfl
  · rfl
  · rcases ppuWrite_cases hw with ⟨-, -, rfl⟩ | ⟨-, -, rfl⟩ | ⟨-, rfl⟩ <;> rfl

theorem memWrite_noReset {a : Word} {v : Byte} {s t : State} (h : memWrite a v s = .ok () t) (hs : s.latch ≠ .reset) :
    t.latch ≠ .reset := by
  unfold memWrite at h
  split at h
  case h_1 => cases h; exact hs
  case h_2 => rw [ppuRegWrite_latch h]; exact hs
  case h_3 => exact ioWrite_noReset h hs
  case h_4 => exact absurd h (raise_ne_ok _ _ _ _)
  case h_5 => cases h; exact hs
  case h_6 => rcases mapperWrite_cases h with ⟨m, -, rfl⟩ | ⟨m, -, -, rfl⟩ <;> exact hs

/-! ### The parts of a step -/

theorem fetch_quiet {i : Instr} {s t : State} (h : fetch s = .ok i t) (noBreak : s.cpu.brk = false)
    (noReset : s.latch ≠ .reset) : t.cpu.brk = false ∧ t.latch ≠ .reset :=
  fetch_preserves_reads (fun u => u.cpu.brk = false ∧ u.latch ≠ .reset) (fun _ hs => hs)
    (fun hr hs => ⟨(congrArg Cpu.brk (memRead_cpu hr)).trans hs.1, memRead_noReset hr hs.2⟩) h ⟨noBreak, noReset⟩

/-- Only BRK sets the break state, and it offers IRQBRK to the latch (R172). -/
theorem exec_checkReady {i : Instr} {s t : State} (h : exec i s = .next t) (noBreak : s.cpu.brk = false)
    (noReset : s.latch ≠ .reset) : CheckReady t where
  noReset := exec_preserves (fun u => u.latch ≠ .reset) (fun _ hs => hs) memRead_noReset memWrite_noReset
    (fun {u} => (Latch.after_irq_or_nmi (.inr (.inl rfl)) u.latch).1) h noReset
  breakLatched pending := by
    by_cases hi : i = .brk
    · subst hi
      cases h
      show s.latch.after .irqBrk ≠ .none
      rw [Latch.after_irqBrk_eq]; split_ifs with empty
      · decide
      · exact empty
    · exact absurd (((exec_cpuKept h).brk hi).symm.trans pending) (by rw [noBreak]; decide)

theorem tickEvents_latch (s : State) : ∃ k, (k = .none ∨ k = .irqBrk ∨ k = .nmi) ∧ (tickEvents s).latch = s.latch.after k := by
  unfold tickEvents
  split
  · exact ⟨_, by split <;> decide, rfl⟩
  · split
    · exact ⟨.none, .inl rfl, rfl⟩
    · split
      · refine ⟨.none, .inl rfl, ?_⟩
        dsimp only; split <;> rfl
      · exact ⟨.none, .inl rfl, rfl⟩

theorem CheckReady.ppuTick {s : State} (hs : CheckReady s) : CheckReady (Machine.ppuTick s) := by
  obtain ⟨k, hk, latched⟩ := tickEvents_latch s
  exact hs.raised (by rw [ppuTick_frame]) hk latched

/-- Where the DMC's reader reads PRG, its check can only raise an IRQ (R276, R279). -/
theorem CheckReady.dmcReaderCheck {s t : State} (hs : CheckReady s) (hd : DmcInv s)
    (h : Machine.dmcReaderCheck s = .ok () t) : CheckReady t := by
  rcases dmcReaderCheck_cases h with ⟨-, rfl⟩ | ⟨-, left, b, u, hr, rfl⟩
  · exact hs
  · rw [memRead_prg (regionOf_prg (hd.current left))] at hr
    cases hr
    exact hs.raised rfl (k := if s.apu.dmc.irqDue then .irqBrk else .none) (by split <;> decide) rfl

theorem CheckReady.apuTick {s t : State} (hs : CheckReady s) (hd : DmcInv s) (h : Machine.apuTick s = .ok () t) :
    CheckReady t := by
  have sequenced : CheckReady (frameSequencerTick s) :=
    hs.raised rfl (k := if s.apu.frameIrqDue then .irqBrk else .none) (by split <;> decide) rfl
  exact CheckReady.dmcReaderCheck (s := (frameSequencerTick s).withApu (frameSequencerTick s).apu.timersTick)
    ⟨sequenced.noReset, sequenced.breakLatched⟩ (dmcInv_keptByApu.timersTick (dmcInv_keptByApu.frameSequencerTick hd)) h

theorem CheckReady.drains {s t : State} (hs : CheckReady s) (hd : DmcInv s) (h : drainApu (drainPpu s) = .ok () t) :
    CheckReady t := by
  have ppu : CheckReady (drainPpu s) :=
    drainPpu_preserves CheckReady CheckReady.ppuTick (fun _ hs => ⟨hs.noReset, hs.breakLatched⟩) hs
  refine (drainApu_preserves (fun u => CheckReady u ∧ DmcInv u) (fun tick hu => ?_) (fun {u} _ hu => ?_) h
    ⟨ppu, dmcInv_keptByApu.drainPpu hd⟩).1
  · exact ⟨hu.1.apuTick hu.2 tick, dmcInv_keptByApu.apuTick tick hu.2⟩
  · exact ⟨⟨hu.1.noReset, hu.1.breakLatched⟩, dmcInv_keptByApu.same (s := u) rfl hu.2⟩

theorem DmcInv.fetch {i : Instr} {s t : State} (hs : DmcInv s) (h : Machine.fetch s = .ok i t) : DmcInv t :=
  fetch_preserves_reads DmcInv (fun {s} _ hs => dmcInv_keptByApu.same (s := s) rfl hs) dmcInv_keptByApu.memRead h hs

theorem DmcInv.exec {i : Instr} {s t : State} (hs : DmcInv s) (h : Machine.exec i s = .next t) : DmcInv t :=
  exec_preserves DmcInv (fun {s} _ hs => dmcInv_keptByApu.same (s := s) rfl hs) dmcInv_keptByApu.memRead
    dmcInv_keptByApu.memWrite (fun {s} hs => dmcInv_keptByApu.same (s := s) rfl hs) h hs

theorem LatchInv.step {s t : State} (hs : LatchInv s) (hd : DmcInv s) (h : Machine.step s = .next t) : LatchInv t := by
  obtain ⟨-, -, i, u, v, w, hfetch, hexec, hdrain, rfl⟩ := step_eq_next.1 h
  have begun : DmcInv (beginStep s) := dmcInv_keptByApu.same (s := s) rfl hd
  have charged : DmcInv (chargeCycles i v) := dmcInv_keptByApu.same (s := v) rfl ((begun.fetch hfetch).exec hexec)
  obtain ⟨noBreak, noReset⟩ := fetch_quiet hfetch hs.brk hs.noReset
  have executed := exec_checkReady hexec noBreak noReset
  have drained := CheckReady.drains (s := chargeCycles i v) ⟨executed.noReset, executed.breakLatched⟩ charged hdrain
  exact CheckReady.resolveInterrupt ⟨drained.noReset, drained.breakLatched⟩

/-- Settles O35: the latch by what the interrupt check finds, the accumulators by the remainders of whole ticks, the batch by
its full batches delivered. -/
theorem betweenStepsInvariantsKept : Obligations.BetweenStepsInvariantsKept := by
  unfold Obligations.BetweenStepsInvariantsKept
  exact fun s t h => ⟨fun hd hs => hs.step hd h, fun hs => hs.step h, fun hs => hs.step h⟩

/-! ## The reset state (R411 to R415) -/

theorem Below.nil {α : Type} (n : Nat) : Below n ([] : Table α) := List.forall_mem_nil _

theorem Memory.Sized.nil (n : Nat) : Memory.Sized n [] := ⟨Memory.wf_nil, Below.nil n⟩

theorem MemoryInv.reset : MemoryInv State.reset where
  ram := .nil _
  sram := .nil _
  prg := List.forall_mem_nil _
  chr := List.forall_mem_nil _
  ciram := .nil _
  oam := .nil _
  pal := ⟨.nil _, .nil _⟩
  attr := ⟨.nil _, .nil _⟩
  spr := .nil _
  fb := .nil _

/-- Settles O60: every memory of the reset state is empty, and each invariant is read off its power-up values. -/
theorem resetMeetsInvariants : Obligations.ResetMeetsInvariants := by
  unfold Obligations.ResetMeetsInvariants
  exact ⟨.reset, ⟨by decide, by decide, rfl⟩, ⟨by decide, by decide, by decide, by decide⟩, ⟨by decide, absurd rfl⟩,
    ⟨.inl rfl, rfl⟩, ⟨rfl, .inl rfl⟩, fun loaded => absurd loaded (by decide), audioBatch_pos, rfl⟩

end Sys2Proof.Machine
end

section
/-! SUPPORT. A fault leaves its record in the state (R14, R364), part by part of a step. -/

namespace Sys2Proof.Machine

/-- The state that the fault leaves holds its record (R364). -/
def Fault.Recorded : Fault → Prop
  | .fatal record left => left.fault = some record

/-- If the operation stops, the state left holds the record. -/
def Res.RecordsStop {α : Type} (r : Res α) : Prop := ∀ f, r = .stop f → f.Recorded

namespace Res.RecordsStop

theorem ok {α : Type} (v : α) (s : State) : (Res.ok v s).RecordsStop := fun _ h => nomatch h

theorem raise {α : Type} (record : Fatal) (s : State) : (Machine.raise record s : Res α).RecordsStop := by
  intro f h; cases h; rfl

theorem bind {α β : Type} {r : Res α} {k : α → State → Res β} (hr : r.RecordsStop) (hk : ∀ v s, (k v s).RecordsStop) :
    (r.bind k).RecordsStop := by
  intro f h
  rcases Res.bind_eq_stop.1 h with h | ⟨v, s, -, h⟩
  · exact hr f h
  · exact hk v s f h

/-! ## The bus -/

theorem memRead (a : Word) (s : State) : (Machine.memRead a s).RecordsStop := by
  unfold Machine.memRead
  split
  case h_4 => exact raise _ _
  all_goals exact ok _ _

theorem dmcReaderCheck (s : State) : (Machine.dmcReaderCheck s).RecordsStop := by
  unfold Machine.dmcReaderCheck
  split
  · exact bind (memRead _ _) fun _ _ => ok _ _
  · exact ok _ _

theorem oamDmaCopy (page : Byte) (n : Nat) (s : State) : (Machine.oamDmaCopy page n s).RecordsStop := by
  induction n generalizing s with
  | zero => exact ok _ _
  | succ n ih => exact bind (memRead _ _) fun _ _ => ih _

theorem ioWrite (r : Nat) (v : Byte) (s : State) : (Machine.ioWrite r v s).RecordsStop := by
  unfold Machine.ioWrite
  split
  case h_1 => exact bind (oamDmaCopy _ _ _) fun _ _ => ok _ _
  case h_2 =>
    unfold writeApuEnables
    dsimp only
    split
    · exact dmcReaderCheck _
    · exact ok _ _
  all_goals exact ok _ _

theorem ppuWrite (a : PpuAddr) (v : Byte) (s : State) : (Machine.ppuWrite a v s).RecordsStop := by
  unfold Machine.ppuWrite writeChr
  split_ifs
  case neg => exact raise _ _
  all_goals exact ok _ _

theorem ppuRegWrite (r : Nat) (v : Byte) (s : State) : (Machine.ppuRegWrite r v s).RecordsStop := by
  unfold Machine.ppuRegWrite
  split
  case h_7 => exact bind (ppuWrite _ _ _) fun _ _ => ok _ _
  all_goals exact ok _ _

theorem mapperWrite (a : Word) (v : Byte) (s : State) : (Machine.mapperWrite a v s).RecordsStop := by
  unfold Machine.mapperWrite
  split
  · exact raise _ _
  · exact ok _ _
  · split
    · exact raise _ _
    · exact ok _ _

theorem memWrite (a : Word) (v : Byte) (s : State) : (Machine.memWrite a v s).RecordsStop := by
  unfold Machine.memWrite
  split
  case h_1 => exact ok _ _
  case h_2 => exact ppuRegWrite _ _ _
  case h_3 => exact ioWrite _ _ _
  case h_4 => exact raise _ _
  case h_5 => exact ok _ _
  case h_6 => exact mapperWrite _ _ _

/-! ## The parts of a step -/

theorem fetchByte (s : State) : (Machine.fetchByte s).RecordsStop := bind (memRead _ _) fun _ _ => ok _ _

theorem fetch (s : State) : (Machine.fetch s).RecordsStop := by
  refine bind (fetchByte s) fun op t => ?_
  split
  · exact raise _ _
  · unfold fetchOperands
    split
    · exact ok _ _
    · exact bind (fetchByte _) fun _ _ => ok _ _
    · exact bind (fetchByte _) fun _ _ => bind (fetchByte _) fun _ _ => ok _ _

theorem apuTicks (n : Nat) (s : State) : (Machine.apuTicks n s).RecordsStop := by
  induction n generalizing s with
  | zero => exact ok _ _
  | succ n ih => exact bind (dmcReaderCheck _) fun _ _ => ih _

end Res.RecordsStop

/-- If the outcome is a fault, the state left holds the record. -/
def RecordsFault (o : Result) : Prop := ∀ f, o = .fault f → f.Recorded

namespace RecordsFault

theorem next (s : State) : RecordsFault (.next s) := fun _ h => nomatch h

theorem toOutcome {r : Res Unit} (h : r.RecordsStop) : RecordsFault r.toOutcome :=
  fun f hf => h f (Res.toOutcome_eq_fault.1 hf)

theorem exec (i : Instr) (s : State) : RecordsFault (Machine.exec i s) := by
  rcases exec_shape i with ⟨g, e, -⟩ | ⟨m, f, e, -⟩ | ⟨m, v, e⟩ | ⟨m, f, e⟩ | ⟨v, e⟩ | ⟨w, rfl⟩ | ⟨w, rfl⟩ | rfl
  · rw [e]; exact next _
  · rw [e]; exact toOutcome (.bind (.memRead _ _) fun _ _ => .ok _ _)
  · rw [e]; exact toOutcome (.memWrite _ _ _)
  · rw [e]; exact toOutcome (.bind (.memRead _ _) fun _ _ => .bind (.memWrite _ _ _) fun _ _ => .ok _ _)
  · rw [e]; exact next _
  · exact toOutcome (.bind (.memRead _ _) fun _ _ => .bind (.memRead _ _) fun _ _ => .ok _ _)
  · exact next _
  · exact next _

theorem settle (i : Instr) (s : State) : RecordsFault (Machine.settle i s) :=
  toOutcome (.bind (.apuTicks _ _) fun _ _ => .ok _ _)

theorem step (s : State) : RecordsFault (Machine.step s) := by
  intro f h
  unfold Machine.step at h
  split at h
  · cases h
  · split at h
    case isFalse => cases h
    unfold runInstruction at h
    split at h
    case h_1 g hfetch => cases h; exact Res.RecordsStop.fetch _ _ hfetch
    case h_2 i t _ =>
      split at h
      case h_1 => exact settle _ _ _ h
      case h_2 hexec => cases h; exact exec _ _ _ hexec
      case h_3 => cases h

end RecordsFault

end Sys2Proof.Machine
end

section
/-! SUPPORT. Runs (R358, R364, R373, R432): what ends a run of steps and a call of RunUntilAudioBufferFull, and when they are
refused; O7. -/

namespace Sys2Proof.Machine

/-! ## When a step is refused (R373) -/

/-- A step of this state is not refused. -/
structure Runs (s : State) : Prop where
  noFault : s.fault = none
  loaded : s.loaded = true

theorem step_faulted {s : State} {r : Fatal} (h : s.fault = some r) : step s = .refused (.faulted r) := by
  rw [step, h]

theorem step_notLoaded {s : State} (hf : s.fault = none) (hl : s.loaded = false) : step s = .refused .notLoaded := by
  rw [step, hf, hl]; rfl

theorem Runs.step_ne_refused {s : State} (hs : Runs s) (q : Refusal) : step s ≠ .refused q := by
  intro h
  rcases step_refused h with ⟨r, hf, -⟩ | ⟨-, hl, -⟩
  · exact absurd (hf.symm.trans hs.noFault) nofun
  · exact absurd (hl.symm.trans hs.loaded) nofun

theorem Runs.write {s t : State} (hs : Runs s) (h : WriteFrame s t) : Runs t := by
  unfold WriteFrame at h
  rw [h]
  exact ⟨hs.noFault, hs.loaded⟩

theorem Runs.step {s t : State} (hs : Runs s) (h : Machine.step s = .next t) : Runs t := by
  refine step_preserves Runs (fun hb hs => ?_) (fun _ hs => ⟨hs.noFault, hs.loaded⟩)
    (fun hr hs => hs.write (memRead_frame hr).write) (fun hw hs => hs.write (memWrite_frame hw))
    (fun hs => ⟨hs.noFault, hs.loaded⟩) (fun hs => ?_) (fun ha hs => hs.write (apuTick_frame ha)) (fun hs => ?_) h hs
  · rw [hb]; exact ⟨hs.noFault, hs.loaded⟩
  · rw [ppuTick_frame]; exact ⟨hs.noFault, hs.loaded⟩
  · rw [resolveInterrupt_frame]; exact ⟨hs.noFault, hs.loaded⟩

/-! ## Runs of steps (R432) -/

theorem runSteps_zero (s : State) : runSteps 0 s = .next s := rfl

/-- A run goes on from what its first part reports, and a fault or a refusal of the first part is the run's. -/
theorem runSteps_add (n m : Nat) (s : State) :
    (∀ t, runSteps n s = .next t → runSteps (n + m) s = runSteps m t) ∧
    (∀ f, runSteps n s = .fault f → runSteps (n + m) s = .fault f) ∧
    (∀ r, runSteps n s = .refused r → runSteps (n + m) s = .refused r) := by
  induction n generalizing s with
  | zero =>
    rw [Nat.zero_add, runSteps_zero]
    exact ⟨fun t h => by rw [Host.Outcome.next.inj h], fun _ h => (nomatch h), fun _ h => (nomatch h)⟩
  | succ n ih =>
    rw [Nat.succ_add]
    cases h : step s with
    | next u => rw [runSteps_next h, runSteps_next h]; exact ih u
    | fault g => rw [runSteps_fault h, runSteps_fault h]; exact ⟨fun _ h => (nomatch h), fun _ => id, fun _ h => (nomatch h)⟩
    | refused q =>
      rw [runSteps_refused h, runSteps_refused h]
      exact ⟨fun _ h => (nomatch h), fun _ h => (nomatch h), fun _ => id⟩

theorem runSteps_one (s : State) : runSteps 1 s = step s := by
  cases h : step s with
  | next t => exact runSteps_next h 0
  | fault f => exact runSteps_fault h 0
  | refused r => exact runSteps_refused h 0

theorem Runs.runSteps_ne_refused {s : State} (hs : Runs s) (n : Nat) (q : Refusal) : runSteps n s ≠ .refused q := by
  induction n generalizing s with
  | zero => exact nofun
  | succ n ih =>
    cases h : Machine.step s with
    | next t => rw [runSteps_next h]; exact ih (hs.step h)
    | fault f => rw [runSteps_fault h]; exact nofun
    | refused r => exact absurd h (hs.step_ne_refused r)

theorem runSteps_recordsFault (n : Nat) (s : State) : RecordsFault (runSteps n s) := by
  induction n generalizing s with
  | zero => exact .next s
  | succ n ih =>
    cases h : step s with
    | next t => rw [runSteps_next h]; exact ih t
    | fault f => rw [runSteps_fault h, ← h]; exact .step s
    | refused r => rw [runSteps_refused h]; exact fun _ => nofun

/-! ## RunUntilAudioBufferFull (R358) -/

variable {s t : State}

theorem runUntil_delivered (h : step s = .next t) (full : t.out.batches ≠ []) (fuel : Nat) :
    runUntilAudioBufferFull (fuel + 1) s = .next t := by
  simp only [runUntilAudioBufferFull, h, List.isEmpty_iff, full, if_false]

theorem runUntil_goesOn (h : step s = .next t) (noBatch : t.out.batches = []) (fuel : Nat) :
    runUntilAudioBufferFull (fuel + 1) s = runUntilAudioBufferFull fuel t := by
  simp only [runUntilAudioBufferFull, h, noBatch, List.isEmpty_nil, if_true]

theorem runUntil_fault {f : Fault} (h : step s = .fault f) (fuel : Nat) :
    runUntilAudioBufferFull (fuel + 1) s = .fault f := by
  rw [runUntilAudioBufferFull, h]

theorem runUntil_refused {r : Refusal} (h : step s = .refused r) (fuel : Nat) :
    runUntilAudioBufferFull (fuel + 1) s = .refused r := by
  rw [runUntilAudioBufferFull, h]

/-- A call is a run of at most as many steps as its bound allows, refusals included. -/
theorem exists_runSteps_eq_runUntil (fuel : Nat) (s : State) :
    ∃ n ≤ fuel, runSteps n s = runUntilAudioBufferFull fuel s := by
  induction fuel generalizing s with
  | zero => exact ⟨0, Nat.le_refl _, rfl⟩
  | succ fuel ih =>
    cases h : step s with
    | next t =>
      by_cases noBatch : t.out.batches = []
      · obtain ⟨n, hn, run⟩ := ih t
        exact ⟨n + 1, Nat.succ_le_succ hn, by rw [runSteps_next h, runUntil_goesOn h noBatch, run]⟩
      · exact ⟨1, Nat.le_add_left .., by rw [runSteps_one, runUntil_delivered h noBatch, h]⟩
    | fault f => exact ⟨1, Nat.le_add_left .., by rw [runSteps_one, runUntil_fault h, h]⟩
    | refused r => exact ⟨1, Nat.le_add_left .., by rw [runSteps_one, runUntil_refused h, h]⟩

/-- The first step of a call that goes on: it delivers and ends the call, or it delivers nothing and the call goes on. -/
theorem first_of_runUntil_next {fuel : Nat} (h : runUntilAudioBufferFull (fuel + 1) s = .next t) :
    ∃ u, step s = .next u ∧
      ((u.out.batches ≠ [] ∧ u = t) ∨ (u.out.batches = [] ∧ runUntilAudioBufferFull fuel u = .next t)) := by
  cases first : step s with
  | next u =>
    refine ⟨u, rfl, ?_⟩
    by_cases noBatch : u.out.batches = []
    · exact .inr ⟨noBatch, (runUntil_goesOn first noBatch fuel).symm.trans h⟩
    · exact .inl ⟨noBatch, Host.Outcome.next.inj ((runUntil_delivered first noBatch fuel).symm.trans h)⟩
  | fault f => exact nomatch (runUntil_fault first fuel).symm.trans h
  | refused r => exact nomatch (runUntil_refused first fuel).symm.trans h

/-- A greater bound changes nothing of a call that a batch ended. -/
theorem runUntil_delivered_mono {fuel : Nat} (h : runUntilAudioBufferFull (fuel + 1) s = .next t)
    (full : t.out.batches ≠ []) (more : Nat) : runUntilAudioBufferFull (fuel + 1 + more) s = .next t := by
  induction fuel generalizing s with
  | zero =>
    rw [Nat.add_comm]
    obtain ⟨u, first, ⟨delivered, rfl⟩ | ⟨noBatch, rest⟩⟩ := first_of_runUntil_next h
    · exact runUntil_delivered first delivered more
    · exact absurd (Host.Outcome.next.inj rest ▸ noBatch) full
  | succ fuel ih =>
    rw [Nat.succ_add]
    obtain ⟨u, first, ⟨delivered, rfl⟩ | ⟨noBatch, rest⟩⟩ := first_of_runUntil_next h
    · exact runUntil_delivered first delivered _
    · rw [runUntil_goesOn first noBatch]; exact ih rest

/-- A greater bound changes nothing of a call that a fault ended. -/
theorem runUntil_fault_mono {f : Fault} {fuel : Nat} (h : runUntilAudioBufferFull fuel s = .fault f) (more : Nat) :
    runUntilAudioBufferFull (fuel + more) s = .fault f := by
  induction fuel generalizing s with
  | zero => cases h
  | succ fuel ih =>
    rw [Nat.succ_add]
    cases first : step s with
    | next u =>
      by_cases noBatch : u.out.batches = []
      · rw [runUntil_goesOn first noBatch] at h ⊢; exact ih h
      · rw [runUntil_delivered first noBatch] at h; cases h
    | fault g => rw [runUntil_fault first] at h ⊢; exact h
    | refused r => rw [runUntil_refused first] at h; cases h

/-- Settles O7: a step is refused for want of a cartridge or for a fault alone, and no step brings either about; a call is a run
of its steps, and a fault leaves its record. -/
theorem stepRefusals : Obligations.StepRefusals := by
  unfold Obligations.StepRefusals
  refine ⟨fun s r => step_faulted, fun s => step_notLoaded, fun s r fuel h => runUntil_refused (step_faulted h) fuel,
    fun s fuel hf hl => runUntil_refused (step_notLoaded hf hl) fuel, fun s q hf hl => Runs.step_ne_refused ⟨hf, hl⟩ q,
    fun s q fuel hf hl => ?call, fun s t fuel h full => runUntil_delivered h full fuel, fun s f fuel h => runUntil_fault h fuel,
    fun s t fuel h noBatch => runUntil_goesOn h noBatch fuel, fun s t fuel => runUntil_delivered_mono,
    fun s f fuel => runUntil_fault_mono, fun s => ⟨rfl, runSteps_one s⟩, fun s n m => ?add,
    fun s r n h => runSteps_refused (step_faulted h) n, fun s n hf hl => runSteps_refused (step_notLoaded hf hl) n,
    fun s q n hf hl => Runs.runSteps_ne_refused ⟨hf, hl⟩ n q, fun s record left n h => ?terminal, fun s t fuel h => ?ended,
    fun s f fuel h => ?faulted⟩
  case call =>
    obtain ⟨n, -, run⟩ := exists_runSteps_eq_runUntil fuel s
    rw [← run]; exact Runs.runSteps_ne_refused ⟨hf, hl⟩ n q
  case add =>
    obtain ⟨next, fault, refused⟩ := runSteps_add n m s
    cases first : runSteps n s with
    | next t => exact next t first
    | fault f => exact fault f first
    | refused r => exact refused r first
  case terminal =>
    have recorded : left.fault = some record := runSteps_recordsFault n s _ h
    exact ⟨recorded, runSteps_refused (step_faulted recorded)⟩
  case ended =>
    obtain ⟨n, hn, run⟩ := exists_runSteps_eq_runUntil fuel s
    exact ⟨n, hn, run.trans h⟩
  case faulted =>
    obtain ⟨n, hn, run⟩ := exists_runSteps_eq_runUntil fuel s
    exact ⟨n, hn, run.trans h⟩

end Sys2Proof.Machine
end

section
/-! SUPPORT. OAM DMA (R360, R425): O53. -/

namespace Sys2Proof.Machine

/-- The address of byte `i` of page `page`. -/
def pageAddress (page : Byte) (i : Nat) : Word := BitVec.ofNat 16 (page.toNat * 256 + i)

theorem pageAddress_toNat (page : Byte) {i : Nat} (hi : i < 256) : (pageAddress page i).toNat = page.toNat * 256 + i := by
  have := page.isLt
  rw [pageAddress, BitVec.toNat_ofNat]; omega

theorem wordOf_ofNat (page : Byte) {i : Nat} (hi : i < 256) : wordOf page (BitVec.ofNat 8 i) = pageAddress page i := by
  apply BitVec.eq_of_toNat_eq
  rw [wordOf_toNat, pageAddress_toNat page hi, BitVec.toNat_ofNat, Nat.mod_eq_of_lt hi]

theorem regionOf_ne_unmapped {a : Word} (h : a.toNat < 0x4018 ∨ 0x6000 ≤ a.toNat) : regionOf a ≠ .unmapped := by
  intro unmapped
  unfold regionOf at unmapped
  split_ifs at unmapped
  omega

theorem exists_byteAt {a : Word} (h : a.toNat < 0x2000 ∨ 0x6000 ≤ a.toNat) (s : State) : ∃ b, s.byteAt a = some b := by
  rcases h with ram | high
  · exact ⟨_, by rw [State.byteAt, regionOf_workRam ram]⟩
  · by_cases sram : a.toNat < 0x8000
    · exact ⟨_, by rw [State.byteAt, regionOf_sram high sram]⟩
    · exact ⟨_, by rw [State.byteAt, regionOf_prg (Nat.not_lt.1 sram)]⟩

/-- The state after the first `i` of an OAM DMA's copies from page `page`, begun in `s`; a read that stops leaves it. -/
def oamDmaAfter (page : Byte) (s : State) : Nat → State
  | 0 => s
  | i + 1 =>
    match memRead (pageAddress page i) (oamDmaAfter page s i) with
    | .ok b t => t.withPpu { t.ppu with oam := t.ppu.oam.write ((s.ppu.oamaddr.toNat + i) % 256) b }
    | .stop _ => oamDmaAfter page s i

theorem oamDmaAfter_succ {page b : Byte} {s t : State} {i : Nat}
    (h : memRead (pageAddress page i) (oamDmaAfter page s i) = .ok b t) :
    oamDmaAfter page s (i + 1) =
      t.withPpu { t.ppu with oam := t.ppu.oam.write ((s.ppu.oamaddr.toNat + i) % 256) b } := by
  rw [oamDmaAfter, h]

/-- Neither a read nor a copy moves `oamaddr` or the clock. -/
theorem oamDmaAfter_frame (page : Byte) (s : State) (i : Nat) :
    (oamDmaAfter page s i).ppu.oamaddr = s.ppu.oamaddr ∧ (oamDmaAfter page s i).clock = s.clock := by
  induction i with
  | zero => exact ⟨rfl, rfl⟩
  | succ i ih =>
    unfold oamDmaAfter
    split
    case h_1 b t hr =>
      have read := (memRead_frame hr).1
      exact ⟨(congrArg (·.ppu.oamaddr) read).trans ih.1, (congrArg State.clock read).trans ih.2⟩
    case h_2 => exact ih

/-- A read that goes on is copied, in the sequence of states and in the loop of the DMA alike. -/
theorem oamDmaCopy_succ {page b : Byte} {s t : State} {i n : Nat} (hn : i + (n + 1) = 256)
    (h : memRead (pageAddress page i) (oamDmaAfter page s i) = .ok b t) :
    oamDmaCopy page (n + 1) (oamDmaAfter page s i) = oamDmaCopy page n (oamDmaAfter page s (i + 1)) := by
  have place : (t.ppu.oamaddr + BitVec.ofNat 8 i).toNat = (s.ppu.oamaddr.toNat + i) % 256 := by
    rw [(memRead_frame h).1, BitVec.toNat_add, BitVec.toNat_ofNat]
    dsimp only
    rw [(oamDmaAfter_frame page s i).1]; omega
  rw [oamDmaCopy, show 255 - n = i by omega, wordOf_ofNat page (by omega), h, oamDmaAfter_succ h, ← place]
  rfl

/-- Where the first `i` bytes of the page have handlers, the DMA comes to its copy `i`. -/
theorem oamDmaCopy_eq_after {page : Byte} {i n : Nat} (hn : i + n = 256)
    (mapped : ∀ j < i, regionOf (pageAddress page j) ≠ .unmapped) (s : State) :
    oamDmaCopy page 256 s = oamDmaCopy page n (oamDmaAfter page s i) := by
  induction i generalizing n with
  | zero => rw [← hn, Nat.zero_add]; rfl
  | succ i ih =>
    obtain ⟨b, t, hr⟩ := memRead_mapped (mapped i (Nat.lt_succ_self i)) (oamDmaAfter page s i)
    rw [ih (n := n + 1) (by omega) fun j hj => mapped j (Nat.lt_succ_of_lt hj), oamDmaCopy_succ (by omega) hr]

theorem memWrite_oamDma (page : Byte) (s : State) : memWrite 0x4014 page s = oamDma page s :=
  memWrite_io (r := 0x14) (by decide) (by decide) page s

/-- A whole DMA. -/
theorem memWrite_oamDma_whole {page : Byte} (mapped : ∀ i < 256, regionOf (pageAddress page i) ≠ .unmapped) (s : State) :
    memWrite 0x4014 page s = .ok () { oamDmaAfter page s 256 with
      clock := { s.clock with dmaCycles := s.clock.dmaCycles + 513 } } := by
  rw [memWrite_oamDma, oamDma, oamDmaCopy_eq_after (Nat.add_zero 256) mapped, ← (oamDmaAfter_frame page s 256).2]
  rfl

/-- A DMA that comes to a byte without a handler stops there. -/
theorem memWrite_oamDma_stop {page : Byte} {i : Nat} (hi : i < 256)
    (mapped : ∀ j < i, regionOf (pageAddress page j) ≠ .unmapped) (hole : regionOf (pageAddress page i) = .unmapped)
    (s : State) :
    memWrite 0x4014 page s = raise (.busUnmappedRead (pageAddress page i)) (oamDmaAfter page s i) := by
  obtain ⟨n, hn⟩ : ∃ n, i + (n + 1) = 256 := ⟨255 - i, by omega⟩
  rw [memWrite_oamDma, oamDma, oamDmaCopy_eq_after hn mapped, oamDmaCopy, show 255 - n = i by omega, wordOf_ofNat page hi,
    memRead_unmapped hole]
  rfl

/-- From a page of memory the copies change OAM alone, and it holds the bytes copied so far. -/
theorem oamDmaAfter_memory {page : Byte} {s : State} (memory : ∀ i < 256, ∃ b, s.byteAt (pageAddress page i) = some b)
    {i : Nat} (hi : i ≤ 256) :
    ∃ oam, oamDmaAfter page s i = s.withPpu { s.ppu with oam := oam } ∧
      ∀ j < i, s.byteAt (pageAddress page j) = some (oam.read ((s.ppu.oamaddr.toNat + j) % 256)) := by
  induction i with
  | zero => exact ⟨s.ppu.oam, rfl, fun j hj => absurd hj (Nat.not_lt_zero j)⟩
  | succ i ih =>
    obtain ⟨oam, after, copied⟩ := ih (Nat.le_of_succ_le hi)
    obtain ⟨b, hb⟩ := memory i hi
    have read : memRead (pageAddress page i) (oamDmaAfter page s i) = .ok b (oamDmaAfter page s i) :=
      memRead_of_byteAt (by rw [after]; exact hb)
    refine ⟨oam.write ((s.ppu.oamaddr.toNat + i) % 256) b, by rw [oamDmaAfter_succ read, after]; rfl, fun j hj => ?_⟩
    rw [Memory.read_write]
    split
    case isTrue same => rw [show j = i by omega]; exact hb
    case isFalse other => exact copied j (by rcases Nat.lt_succ_iff_lt_or_eq.1 hj with h | rfl; exacts [h, absurd rfl other])

/-- Settles O53: the copies one by one, by where the page lies. -/
theorem oamDmaCopies : Obligations.OamDmaCopies := by
  unfold Obligations.OamDmaCopies
  intro copied
  have copy {s : State} {v : Byte} {i : Nat} (mapped : regionOf (pageAddress v i) ≠ .unmapped) :
      copied s v i (oamDmaAfter v s i) (oamDmaAfter v s (i + 1)) := by
    obtain ⟨b, t, hr⟩ := memRead_mapped mapped (oamDmaAfter v s i)
    exact ⟨b, t, hr, oamDmaAfter_succ hr⟩
  refine ⟨fun s v hv => ?_, fun s v hv => ?_, fun s => ?_, fun s v low high => ?_⟩
  · have mapped (i : Nat) (hi : i < 256) : regionOf (pageAddress v i) ≠ .unmapped :=
      regionOf_ne_unmapped (by rw [pageAddress_toNat v hi]; omega)
    exact ⟨oamDmaAfter v s, rfl, fun i hi => copy (mapped i hi), memWrite_oamDma_whole mapped s, (oamDmaAfter_frame v s 256).1⟩
  · have memory (i : Nat) (hi : i < 256) : ∃ b, s.byteAt (pageAddress v i) = some b :=
      exists_byteAt (by rw [pageAddress_toNat v hi]; omega) s
    have mapped (i : Nat) (hi : i < 256) : regionOf (pageAddress v i) ≠ .unmapped :=
      regionOf_ne_unmapped (by rw [pageAddress_toNat v hi]; omega)
    obtain ⟨oam, after, holds⟩ := oamDmaAfter_memory memory (Nat.le_refl 256)
    exact ⟨oam, by rw [memWrite_oamDma_whole mapped, after]; rfl, holds⟩
  · have mapped (i : Nat) (hi : i < 24) : regionOf (pageAddress 0x40 i) ≠ .unmapped :=
      regionOf_ne_unmapped (.inl ((pageAddress_toNat 0x40 (by omega)).trans_lt (show 64 * 256 + i < 0x4018 by omega)))
    exact ⟨oamDmaAfter 0x40 s, rfl, fun i hi => copy (mapped i hi),
      memWrite_oamDma_stop (by decide) mapped (by decide) s⟩
  · have first : pageAddress v 0 = v ++ 0#8 := (wordOf_ofNat v (by decide)).symm
    have hole : regionOf (pageAddress v 0) = .unmapped := by
      have := pageAddress_toNat v (i := 0) (by decide)
      exact regionOf_unmapped (by omega) (by omega)
    rw [memWrite_oamDma_stop (by decide) (fun j hj => absurd hj (Nat.not_lt_zero j)) hole, first]
    rfl

end Sys2Proof.Machine
end

section
/-! SUPPORT. The controllers (R369, R370, R372): O54. -/

namespace Sys2Proof.Machine

theorem Pads.writeStrobe_eq (p : Pads) (v : Byte) :
    p.writeStrobe v =
      if p.strobe = true ∧ v.getLsbD 0 = false then
        { pad0 := { p.pad0 with shift := p.pad0.buttons }, pad1 := { p.pad1 with shift := p.pad1.buttons }, strobe := false }
      else { p with strobe := v.getLsbD 0 } := by
  unfold Pads.writeStrobe
  exact if_congr (by simp) rfl rfl

theorem serialByte_getLsbD_zero (d : Byte) (bit : Bool) : (serialByte d bit).getLsbD 0 = bit := by
  unfold serialByte
  rw [BitVec.getLsbD_append]
  simp

theorem memRead_pad0 (s : State) : memRead 0x4016 s = answered (readPad0 s) :=
  memRead_io (r := 0x16) (by decide) (by decide) s

theorem memRead_pad1 (s : State) : memRead 0x4017 s = answered (readPad1 s) :=
  memRead_io (r := 0x17) (by decide) (by decide) s

/-- A shift moves each bit one place down and a 1 in at the top (R370). -/
theorem Pad.shifted_getLsbD (p : Pad) {j : Nat} (hj : j < 8) :
    (p.shifted false).shift.getLsbD j = if j < 7 then p.shift.getLsbD (j + 1) else true := by
  have top : ∀ j < 8, (0x80 : Byte).getLsbD j = !decide (j < 7) := by decide
  show (p.shift >>> 1 ||| 0x80).getLsbD j = _
  rw [BitVec.getLsbD_or, BitVec.getLsbD_ushiftRight, top j hj, Nat.add_comm]
  split <;> simp_all

/-- After `k` shifts the register holds the report's bits from `k` on, and 1s above them. -/
theorem Pad.iterate_shifted_getLsbD (p : Pad) (k : Nat) {j : Nat} (hj : j < 8) :
    ((fun q : Pad => q.shifted false)^[k] p).shift.getLsbD j = if j + k < 8 then p.shift.getLsbD (j + k) else true := by
  induction k generalizing j with
  | zero => exact (if_pos hj).symm
  | succ k ih =>
    rw [Function.iterate_succ_apply', Pad.shifted_getLsbD _ hj]
    split
    case isTrue inner => rw [ih (Nat.succ_lt_succ inner), Nat.succ_add, Nat.add_succ]
    case isFalse top => rw [if_neg (by omega)]

/-- What the two serial reads have in common, `pad` being the controller that `read` reads (R370). -/
structure SerialRead (read : State → Byte × State) (pad : State → Pad) : Prop where
  bit : ∀ s, (read s).1.getLsbD 0 = (pad s).bit s.pads.strobe
  shifted : ∀ s, pad (read s).2 = (pad s).shifted s.pads.strobe
  strobe : ∀ s, (read s).2.pads.strobe = s.pads.strobe

theorem serialRead_pad0 : SerialRead readPad0 fun s => s.pads.pad0 :=
  ⟨fun _ => serialByte_getLsbD_zero _ _, fun _ => rfl, fun _ => rfl⟩

theorem serialRead_pad1 : SerialRead readPad1 fun s => s.pads.pad1 :=
  ⟨fun _ => serialByte_getLsbD_zero _ _, fun _ => rfl, fun _ => rfl⟩

/-- While not strobed, `k` reads shift the controller's register `k` times. -/
theorem SerialRead.iterate {read : State → Byte × State} {pad : State → Pad} (h : SerialRead read pad) {s : State}
    (off : s.pads.strobe = false) (k : Nat) :
    ((fun u => (read u).2)^[k] s).pads.strobe = false ∧
    pad ((fun u => (read u).2)^[k] s) = (fun q : Pad => q.shifted false)^[k] (pad s) := by
  induction k with
  | zero => exact ⟨off, rfl⟩
  | succ k ih =>
    obtain ⟨strobe, shifted⟩ := ih
    rw [Function.iterate_succ_apply', Function.iterate_succ_apply', h.strobe, h.shifted, strobe, shifted]
    exact ⟨rfl, rfl⟩

/-- The read after `k` reads gives bit `k` of the latched report, and 1 from the ninth on. -/
theorem SerialRead.nth_bit {read : State → Byte × State} {pad : State → Pad} (h : SerialRead read pad) {s : State}
    (off : s.pads.strobe = false) (k : Nat) :
    (read ((fun u => (read u).2)^[k] s)).1.getLsbD 0 = if k < 8 then (pad s).shift.getLsbD k else true := by
  obtain ⟨strobe, shifted⟩ := h.iterate off k
  have bit := (pad s).iterate_shifted_getLsbD k (j := 0) (by decide)
  rw [Nat.zero_add] at bit
  rw [h.bit, strobe, shifted, ← bit]
  rfl

/-- Settles O54: the falling edge, the shifts between two reads, the strobed read and the host's call. -/
theorem controllerReads : Obligations.ControllerReads := by
  unfold Obligations.ControllerReads
  refine ⟨fun s v => ?edge, fun s k off => ?serial, fun s on => ?strobed, fun s b => ⟨if_pos rfl, if_neg (by decide)⟩⟩
  case edge =>
    rw [memWrite_io (r := 0x16) (by decide) (by decide), ← Pads.writeStrobe_eq]
    rfl
  case serial =>
    intro again
    have again0 : again 0x4016 = fun u => (readPad0 u).2 := funext fun u => by simp only [again, memRead_pad0]; rfl
    have again1 : again 0x4017 = fun u => (readPad1 u).2 := funext fun u => by simp only [again, memRead_pad1]; rfl
    rw [again0, again1, repeat_eq_iterate, repeat_eq_iterate]
    exact ⟨⟨_, _, memRead_pad0 _, serialRead_pad0.nth_bit off k⟩, ⟨_, _, memRead_pad1 _, serialRead_pad1.nth_bit off k⟩⟩
  case strobed =>
    have held (p : Pad) : p.shifted s.pads.strobe = p := by rw [on]; rfl
    have pad0 : (readPad0 s).2 = { s with draws := s.draws + 1 } := by rw [readPad0, held]; rfl
    have pad1 : (readPad1 s).2 = { s with draws := s.draws + 1 } := by rw [readPad1, held]; rfl
    refine ⟨(readPad0 s).1, (readPad1 s).1, ?_, ?_, ?_, ?_⟩
    · rw [memRead_pad0, answered, pad0]
    · rw [serialRead_pad0.bit, on]; rfl
    · rw [memRead_pad1, answered, pad1]
    · rw [serialRead_pad1.bit, on]; rfl

end Sys2Proof.Machine
end

section
/-! SUPPORT. The windows as functions of the mapper's registers (R330, R333 to R338): O56. -/

namespace Sys2Proof.Machine

/-! ## Mapper 1 (R333, R334) -/

theorem Mmc1.prgMode_toNat (r : Mmc1) : (r.control.extractLsb 3 2).toNat = r.control.toNat / 4 % 4 := by
  rw [BitVec.extractLsb_toNat, Nat.shiftRight_eq_div_pow]

theorem Mmc1.prgBank_toNat (r : Mmc1) : (r.prg.extractLsb 3 0).toNat = r.prg.toNat % 16 := by
  rw [BitVec.extractLsb_toNat, Nat.shiftRight_zero]

theorem Mmc1.chrMode_eq (r : Mmc1) : r.control.getLsbD 4 = decide (16 ≤ r.control.toNat) := by
  have := r.control.isLt
  rw [BitVec.getLsbD, Nat.testBit_eq_decide_div_mod_eq]
  exact decide_eq_decide.2 (by omega)

/-- The PRG windows by mode, the number `b` being the selected 16 KiB bank (R333). -/
theorem Mmc1.prgWindows_eq (r : Mmc1) (n : Nat) {m b : Nat} (hm : m = r.control.toNat / 4 % 4) (hb : b = r.prg.toNat % 16) :
    (m < 2 → r.prgWindows n = #v[4 * (b / 2), 4 * (b / 2) + 1, 4 * (b / 2) + 2, 4 * (b / 2) + 3]) ∧
    (m = 2 → r.prgWindows n = #v[0, 1, 2 * b, 2 * b + 1]) ∧
    (m = 3 → r.prgWindows n = #v[2 * b, 2 * b + 1, n - 2, n - 1]) := by
  unfold Mmc1.prgWindows
  rw [Mmc1.prgMode_toNat, Mmc1.prgBank_toNat, ← hm, ← hb]
  dsimp only
  refine ⟨fun h => ?_, fun h => ?_, fun h => ?_⟩
  · match m, h with
    | 0, _ | 1, _ => rfl
  · rw [h]; rfl
  · rw [h]; rfl

/-- In 8 KiB mode the low bit of the bank number is ignored (R334). -/
theorem Mmc1.chrWindows_bank8 {r : Mmc1} (h : r.control.toNat < 16) : r.chrWindows = chrBank8 (r.chr0.toNat / 2) := by
  unfold Mmc1.chrWindows
  rw [r.chrMode_eq, decide_eq_false (Nat.not_le.2 h)]
  rfl

theorem Mmc1.chrWindows_bank4 {r : Mmc1} (h : 16 ≤ r.control.toNat) (i : Nat) (hi : i < 4) :
    r.chrWindows[i] = 4 * r.chr0.toNat + i ∧ r.chrWindows[4 + i] = 4 * r.chr1.toNat + i := by
  unfold Mmc1.chrWindows
  simp only [r.chrMode_eq, decide_eq_true h, if_true]
  match i, hi with
  | 0, _ | 1, _ | 2, _ | 3, _ => exact ⟨rfl, rfl⟩

/-! ## Mapper 4 (R338) -/

theorem toNat_and_0x3F (b : Byte) : (b &&& 0x3F).toNat = b.toNat % 64 := by
  rw [BitVec.toNat_and]; exact Nat.and_two_pow_sub_one_eq_mod b.toNat 6

theorem or_one_toNat : ∀ b : Byte, (b ||| 1).toNat = b.toNat / 2 * 2 + 1 := by decide

theorem Mmc3.prgWindows_eq (r : Mmc3) (n : Nat) :
    r.prgWindows n =
      if r.select.toNat / 64 % 2 = 0 then #v[r.r[6].toNat % 64, r.r[7].toNat % 64, n - 2, n - 1]
      else #v[n - 2, r.r[7].toNat % 64, r.r[6].toNat % 64, n - 1] := by
  have mode : r.select.getLsbD 6 = !decide (r.select.toNat / 64 % 2 = 0) := by
    rw [BitVec.getLsbD, Nat.testBit_eq_decide_div_mod_eq, ← decide_not]
    exact decide_eq_decide.2 (by omega)
  unfold Mmc3.prgWindows
  rw [mode, toNat_and_0x3F, toNat_and_0x3F]
  by_cases h : r.select.toNat / 64 % 2 = 0 <;> simp [h]

theorem Mmc3.chrWindows_eq (r : Mmc3) :
    r.chrWindows =
      if r.select.toNat < 128 then
        #v[r.r[0].toNat / 2 * 2, r.r[0].toNat / 2 * 2 + 1, r.r[1].toNat / 2 * 2, r.r[1].toNat / 2 * 2 + 1, r.r[2].toNat,
           r.r[3].toNat, r.r[4].toNat, r.r[5].toNat]
      else
        #v[r.r[2].toNat, r.r[3].toNat, r.r[4].toNat, r.r[5].toNat, r.r[0].toNat / 2 * 2, r.r[0].toNat / 2 * 2 + 1,
           r.r[1].toNat / 2 * 2, r.r[1].toNat / 2 * 2 + 1] := by
  have mode : r.select.getLsbD 7 = !decide (r.select.toNat < 128) := by
    have := r.select.isLt
    rw [BitVec.getLsbD, Nat.testBit_eq_decide_div_mod_eq, ← decide_not]
    exact decide_eq_decide.2 (by omega)
  unfold Mmc3.chrWindows
  rw [mode, and_0xFE_toNat, and_0xFE_toNat, or_one_toNat, or_one_toNat]
  by_cases h : r.select.toNat < 128 <;> simp [h]

/-- Settles O56: the banks and the modes as numbers. -/
theorem windowTables : Obligations.WindowTables := by
  unfold Obligations.WindowTables
  refine ⟨fun n => ⟨rfl, rfl⟩, fun bank n => ⟨rfl, rfl, rfl, chrBank8_getElem bank.toNat⟩, fun r n m b hm hb => ?_,
    fun r n => ⟨rfl, r.prgWindows_eq n, r.chrWindows_eq⟩⟩
  obtain ⟨bank32, low16, high16⟩ := r.prgWindows_eq n hm hb
  refine ⟨rfl, bank32, low16, high16, fun h i hi => ?_, Mmc1.chrWindows_bank4, ?_⟩
  · rw [Mmc1.chrWindows_bank8 h, chrBank8_getElem]
  · rw [r.mirroring_eq]
    match r.control.toNat % 4 with
    | 0 | 1 | 2 | _ + 3 => rfl

end Sys2Proof.Machine
end

section
/-! SUPPORT. Loading a cartridge (R321 to R324, R381) and the console at power-up (R410 to R417): O58. -/

namespace Sys2Proof.Machine

/-! ## The header and the pages of an image (R321, R322, R324) -/

theorem and_0xF0_toNat : ∀ b : Byte, (b &&& 0xF0#8).toNat = 2 ^ 4 * (b.toNat / 16) := by decide

/-- The mapper's number has its high digit from byte 7 and its low digit from byte 6 (R322). -/
theorem headerMapper_eq (bytes : List Byte) :
    headerMapper bytes = (imageByte bytes 7).toNat / 16 * 16 + (imageByte bytes 6).toNat / 16 := by
  have low : (imageByte bytes 6).toNat / 16 < 2 ^ 4 := by have := (imageByte bytes 6).isLt; omega
  change ((imageByte bytes 7 &&& 0xF0#8) ||| (imageByte bytes 6 >>> 4)).toNat = _
  rw [BitVec.toNat_or, and_0xF0_toNat, BitVec.toNat_ushiftRight, Nat.shiftRight_eq_div_pow,
    ← Nat.two_pow_add_eq_or_of_lt low, Nat.mul_comm]

theorem imagePages_length (bytes : List Byte) (start size count : Nat) :
    (imagePages bytes start size count).length = count := by
  rw [imagePages, List.length_map, List.length_range]

/-- The bytes of page `p` are those of the image from its offset on (R324). -/
theorem imagePages_read {bytes : List Byte} {start size count p : Nat} {m : Memory}
    (h : (imagePages bytes start size count)[p]? = some m) {j : Nat} (hj : j < size) :
    m.read j = bytes.getD (start + size * p + j) 0 := by
  rw [imagePages, List.getElem?_map, Option.map_eq_some_iff] at h
  obtain ⟨k, hk, rfl⟩ := h
  obtain ⟨_, rfl⟩ := List.getElem?_eq_some_iff.1 hk
  rw [Memory.read_ofBytes, List.getElem_range, List.getD_eq_getElem?_getD, List.getElem?_take_of_lt hj, List.getElem?_drop,
    ← List.getD_eq_getElem?_getD]
  rfl

/-! ## What loads (R321, R323, R324) -/

/-- The image passes the signature and length checks. -/
structure ImageChecked (bytes : List Byte) : Prop where
  signature : bytes.take 4 = Machine.signature
  long : 16 < bytes.length
  length : bytes.length = 16 + headerPrgPages bytes * 8192 + headerChrPages bytes * 1024

/-- The mapper of an image at power-up (R416); none where its number is above 4. -/
def imageMapper (bytes : List Byte) : Option Mapper :=
  Mapper.powerUp (headerMapper bytes) ((imageByte bytes 6).getLsbD 0)

theorem imageCartridge_prgPages (mem : InitMem) (bytes : List Byte) :
    (imageCartridge mem bytes).prgPages = headerPrgPages bytes := imagePages_length ..

/-- An image without CHR pages gets eight of CHR-RAM (R324). -/
theorem imageCartridge_chrPages (mem : InitMem) (bytes : List Byte) :
    (imageCartridge mem bytes).chrPages = if headerChrPages bytes = 0 then 8 else headerChrPages bytes := by
  unfold Cartridge.chrPages imageCartridge
  dsimp only
  split
  · exact Vector.length_toList
  · exact imagePages_length ..

section
variable {mem : InitMem} {bytes : List Byte}

/-- What a checked image comes to, by its mapper and by whether the power-up windows name existing pages. -/
theorem loadCartridge_of_checked (h : ImageChecked bytes) :
    (imageMapper bytes = none → loadCartridge mem bytes = .error .unsupportedMapper) ∧
    ∀ m, imageMapper bytes = some m →
      let fits := (m.windows (headerPrgPages bytes)).Fit (headerPrgPages bytes) (imageCartridge mem bytes).chrPages
      (¬ fits → loadCartridge mem bytes = .error .bankOverflow) ∧
      (fits → loadCartridge mem bytes = .ok (powerUp mem (imageCartridge mem bytes) m)) := by
  obtain ⟨sig, long, len⟩ := h
  have mapper : Mapper.powerUp (headerMapper bytes) (imageCartridge mem bytes).hdrMirroring = imageMapper bytes := rfl
  unfold loadCartridge
  rw [if_neg (not_not.2 sig), if_neg (Nat.ne_of_gt long), if_neg (Nat.not_lt.2 (Nat.le_of_lt long)), if_neg (not_not.2 len)]
  dsimp only
  rw [mapper, imageCartridge_prgPages]
  refine ⟨fun unknown => by rw [unknown], fun m hm => ?_⟩
  rw [hm]
  dsimp only
  cases overflow : (m.windows (headerPrgPages bytes)).overflow (headerPrgPages bytes) (imageCartridge mem bytes).chrPages with
  | none => exact ⟨fun missing => absurd (Windows.overflow_eq_none.1 overflow) missing, fun _ => rfl⟩
  | some w =>
    refine ⟨fun _ => rfl, fun fits => ?_⟩
    rw [Windows.overflow_eq_none.2 fits] at overflow
    cases overflow

theorem imageChecked_of_loads {s : State} (h : loadCartridge mem bytes = .ok s) : ImageChecked bytes := by
  unfold loadCartridge at h
  split_ifs at h with sig header short len
  exact ⟨not_not.1 sig, by omega, not_not.1 len⟩

/-- A console that loads stands at power-up with the image's cartridge and its mapper, the windows on existing pages. -/
theorem loadCartridge_eq_ok {s : State} (h : loadCartridge mem bytes = .ok s) :
    ∃ m, imageMapper bytes = some m ∧
      (m.windows (headerPrgPages bytes)).Fit (headerPrgPages bytes) (imageCartridge mem bytes).chrPages ∧
      s = powerUp mem (imageCartridge mem bytes) m := by
  obtain ⟨unsupported, supported⟩ := loadCartridge_of_checked (mem := mem) (imageChecked_of_loads h)
  cases hm : imageMapper bytes with
  | none => rw [unsupported hm] at h; cases h
  | some m =>
    obtain ⟨missing, loads⟩ := supported m hm
    by_cases fits : (m.windows (headerPrgPages bytes)).Fit (headerPrgPages bytes) (imageCartridge mem bytes).chrPages
    · rw [loads fits] at h
      cases h
      exact ⟨m, rfl, fits, rfl⟩
    · rw [missing fits] at h; cases h

end

/-! ## The mapper at power-up (R416) -/

/-- The registers of each mapper at power-up. -/
theorem Mapper.powerUp_cases {k : Nat} {hdr : Bool} {m : Mapper} (h : Mapper.powerUp k hdr = some m) :
    (k = 0 ∧ m = .mapper0) ∨
    (k = 1 ∧ m = .mapper1 { shift := 0, count := 0, control := 0x0C, chr0 := 0, chr1 := 0, prg := 0 }) ∨
    (k = 2 ∧ m = .mapper2 0) ∨ (k = 3 ∧ m = .mapper3 0) ∨
    (k = 4 ∧ m = .mapper4 { select := 0, r := Vector.replicate 8 0, mirror := !hdr }) := by
  unfold Mapper.powerUp at h
  split at h <;> cases h <;> simp

theorem Mapper.powerUp_number {k : Nat} {hdr : Bool} {m : Mapper} (h : Mapper.powerUp k hdr = some m) : m.number = k := by
  rcases Mapper.powerUp_cases h with ⟨rfl, rfl⟩ | ⟨rfl, rfl⟩ | ⟨rfl, rfl⟩ | ⟨rfl, rfl⟩ | ⟨rfl, rfl⟩ <;> rfl

theorem Mapper.powerUp_eq_none {k : Nat} {hdr : Bool} : Mapper.powerUp k hdr = none ↔ 4 < k := by
  match k with
  | 0 | 1 | 2 | 3 | 4 => simp [Mapper.powerUp]
  | k + 5 => simp [Mapper.powerUp]

theorem Mapper.powerUp_known {k : Nat} {hdr : Bool} {m : Mapper} (h : Mapper.powerUp k hdr = some m) : k ≤ 4 :=
  Nat.not_lt.1 fun above => nomatch (Mapper.powerUp_eq_none.2 above).symm.trans h

/-- Every mapper but 4 powers up with the windows of mapper 2 at bank 0; mapper 4 powers up with all of its banks 0. -/
theorem Mapper.powerUp_windows {k : Nat} {hdr : Bool} {m : Mapper} (h : Mapper.powerUp k hdr = some m) (n : Nat) :
    m.windows n = (Mapper.mapper2 0).windows n ∨ m.windows n = ⟨#v[0, 0, n - 2, n - 1], #v[0, 1, 0, 1, 0, 0, 0, 0]⟩ := by
  rcases Mapper.powerUp_cases h with ⟨-, rfl⟩ | ⟨-, rfl⟩ | ⟨-, rfl⟩ | ⟨-, rfl⟩ | ⟨-, rfl⟩
  · exact .inl rfl
  · exact .inl rfl
  · exact .inl rfl
  · exact .inl rfl
  · exact .inr (by simp [Mapper.windows, Mmc3.prgWindows_eq, Mmc3.chrWindows_eq])

theorem Mapper.powerUp_windows_fit {k : Nat} {hdr : Bool} {m : Mapper} (h : Mapper.powerUp k hdr = some m) {n c : Nat}
    (hn : 2 ≤ n) (hc : 8 ≤ c) : (m.windows n).Fit n c := by
  rcases Mapper.powerUp_windows h n with e | e <;> rw [e]
  · exact mapper2_windows_fit hn hc hn
  · have chr : ∀ i (_ : i < 8), #v[0, 1, 0, 1, 0, 0, 0, 0][i] < 8 := by decide
    exact ⟨prgWindows_getElem_lt (by omega) (by omega) (by omega) (by omega), fun i hi => (chr i hi).trans_le hc⟩

theorem Mapper.powerUp_windows_last {k : Nat} {hdr : Bool} {m : Mapper} (h : Mapper.powerUp k hdr = some m) (n : Nat) :
    (m.windows n).prg[3] = n - 1 := by
  rcases Mapper.powerUp_windows h n with e | e <;> rw [e] <;> rfl

/-! ## The console at power-up (R410 to R415) -/

theorem imageMapper_of_number {bytes : List Byte} {k : Nat} (h : headerMapper bytes = k) :
    imageMapper bytes = Mapper.powerUp k ((imageByte bytes 6).getLsbD 0) := by rw [imageMapper, h]

/-- The status byte does not depend on PC (R24). -/
theorem powerUp_status (mem : InitMem) (c : Cartridge) (m : Mapper) : (powerUp mem c m).cpu.status true = 0x34 := by
  show Cpu.powerUp.status true = 0x34
  decide

/-- A checked image loads where it has a PRG page, and there alone (R324). -/
theorem imageMapper_fits {mem : InitMem} {bytes : List Byte} {m : Mapper} (hm : imageMapper bytes = some m) :
    (m.windows (headerPrgPages bytes)).Fit (headerPrgPages bytes) (imageCartridge mem bytes).chrPages ↔
      headerPrgPages bytes ≠ 0 := by
  constructor
  · intro fits noPrg
    have := fits.1 0 (by decide)
    omega
  · intro hasPrg
    refine Mapper.powerUp_windows_fit hm ?_ ?_
    · unfold headerPrgPages at hasPrg ⊢; omega
    · rw [imageCartridge_chrPages]; unfold headerChrPages; split <;> omega

/-- The byte `d` places below the end of the address space, within the last window, is the byte as many places below the end
of the image's PRG part. -/
theorem powerUp_prgRead_last {mem : InitMem} {bytes : List Byte} {m : Mapper} (hm : imageMapper bytes = some m)
    (hasPrg : headerPrgPages bytes ≠ 0) {a : Word} {d : Nat} (ha : a.toNat + d = 0x10000) (hd : d ≤ 0x2000) :
    prgRead (powerUp mem (imageCartridge mem bytes) m) a = bytes.getD (16 + headerPrgPages bytes * 8192 - d) 0 := by
  have := a.isLt
  have pages : (imageCartridge mem bytes).prg.length = headerPrgPages bytes := imagePages_length ..
  obtain ⟨page, hpage⟩ : ∃ page, (imageCartridge mem bytes).prg[headerPrgPages bytes - 1]? = some page :=
    ⟨_, List.getElem?_eq_getElem (by omega)⟩
  have window : (powerUp mem (imageCartridge mem bytes) m).win.prg[(a.toNat - 0x8000) / 0x2000]? =
      some (headerPrgPages bytes - 1) := by
    rw [show (a.toNat - 0x8000) / 0x2000 = 3 by omega, ← imageCartridge_prgPages mem]
    exact Vector.getElem?_eq_some_iff.2 ⟨by decide, Mapper.powerUp_windows_last hm _⟩
  rw [prgRead_eq_page (by omega) window hpage, imagePages_read hpage (Nat.mod_lt _ (by decide))]
  congr 1
  omega

/-- Settles O58: the checks in their order, then the power-up values, of which the mapper's and PC depend on the image. -/
theorem loadedConsole : Obligations.LoadedConsole := by
  unfold Obligations.LoadedConsole
  intro mem bytes n c k hdr hn hc hk hhdr
  obtain rfl : n = headerPrgPages bytes := hn
  obtain rfl : c = headerChrPages bytes := hc
  obtain rfl : k = headerMapper bytes := hk.trans (headerMapper_eq bytes).symm
  refine ⟨fun sig => if_pos sig, fun sig header => (if_neg (not_not.2 sig)).trans (if_pos header),
    fun sig short => (if_neg (not_not.2 sig)).trans ((if_neg (Nat.ne_of_lt short)).trans (if_pos short)),
    fun sig long len => (if_neg (not_not.2 sig)).trans ((if_neg (Nat.ne_of_gt long)).trans
      ((if_neg (Nat.not_lt.2 (Nat.le_of_lt long))).trans (if_pos len))), fun sig long len => ?checked, fun s h => ?loaded⟩
  case checked =>
    obtain ⟨unsupported, supported⟩ := loadCartridge_of_checked (mem := mem) ⟨sig, long, len⟩
    have mapper (known : headerMapper bytes ≤ 4) : ∃ m, imageMapper bytes = some m :=
      Option.ne_none_iff_exists'.1 fun unknown => Nat.not_lt.2 known (Mapper.powerUp_eq_none.1 unknown)
    refine ⟨fun above => unsupported (Mapper.powerUp_eq_none.2 above), fun known noPrg => ?_, fun known hasPrg => ?_⟩
    · obtain ⟨m, hm⟩ := mapper known
      exact (supported m hm).1 fun fits => (imageMapper_fits hm).1 fits noPrg
    · obtain ⟨m, hm⟩ := mapper known
      exact ⟨_, (supported m hm).2 ((imageMapper_fits hm).2 hasPrg)⟩
  case loaded =>
    obtain ⟨sig, long, len⟩ := imageChecked_of_loads h
    obtain ⟨m, hm, fits, rfl⟩ := loadCartridge_eq_ok h
    have hasPrg := (imageMapper_fits hm).1 fits
    refine ⟨sig, len, by omega, Mapper.powerUp_known hm, Mapper.powerUp_number hm, rfl, rfl, ?windows, imagePages_length ..,
      fun p page hpage j hj => imagePages_read hpage hj, fun hasChr => ?chrRom,
      fun noChr => ⟨beq_iff_eq.2 noChr, if_pos noChr⟩, hhdr.symm, rfl, fun one => ?mapper1, fun two => ?mapper2,
      fun three => ?mapper3, fun four => ?mapper4, ?pc, rfl, powerUp_status .., rfl, ?pulses, rfl, rfl, rfl, rfl, rfl, rfl, rfl, rfl, rfl, rfl⟩
    case windows =>
      rw [← imageCartridge_prgPages mem bytes] at fits
      exact fun _ => ⟨rfl, fits⟩
    case chrRom =>
      have chr : (imageCartridge mem bytes).chr = imagePages bytes _ 1024 (headerChrPages bytes) := if_neg hasChr
      refine ⟨beq_false_of_ne hasChr, (congrArg List.length chr).trans (imagePages_length ..), fun p page hpage j hj => ?_⟩
      exact imagePages_read (chr ▸ hpage) hj
    case mapper1 => exact Option.some.inj (hm.symm.trans (imageMapper_of_number one))
    case mapper2 => exact Option.some.inj (hm.symm.trans (imageMapper_of_number two))
    case mapper3 => exact Option.some.inj (hm.symm.trans (imageMapper_of_number three))
    case mapper4 =>
      obtain rfl := Option.some.inj (hm.symm.trans (imageMapper_of_number four))
      refine ⟨_, rfl, rfl, fun i hi => Vector.getElem_replicate hi, ?_⟩
      show (if !(imageByte bytes 6).getLsbD 0 then Mirroring.horizontal else .vertical) = _
      rw [show (imageByte bytes 6).getLsbD 0 = hdr from hhdr.symm]
      cases hdr <;> rfl
    case pc =>
      exact congrArg₂ (fun hi lo : Byte => hi ++ lo) (powerUp_prgRead_last hm hasPrg (by decide) (by decide))
        (powerUp_prgRead_last hm hasPrg (by decide) (by decide))
    case pulses => rintro p (rfl | rfl) <;> rfl

end Sys2Proof.Machine
end
